-- ==== Sys2Proof/Word.lean ====
section
/-!
DEFINITION. Word types of the Narigon AT4 and their plainest arithmetic: bytes, the 16-, 24- and 32-bit
fields of the ring, station numbers, and one value for each of the four stations.
-/
namespace Sys2Proof

/-- One byte of a frame, an entry or a record. -/
abbrev Byte := BitVec 8

/-- A station number, 0 to 3 (spec/00_scope.md, Terms: station). -/
abbrev Stn := Fin 4

/-- A ring address, 0 to 63 (spec/00_scope.md, Time). -/
abbrev Addr := BitVec 6

/-- A frame as it stands on the ring: 24 bytes, byte 0 first (spec/11, section 11.1). -/
abbrev Frame := List Byte

/-- A 16-byte entry, serial or segment. -/
abbrev Entry := List Byte

/-- All stations in ascending number. -/
def allStations : List Stn := [0, 1, 2, 3]

/-- One value for each of the four stations (spec/00_scope.md, Blocks of the AT4: blocks with count 4). -/
structure Four (α : Type) where
  s0 : α
  s1 : α
  s2 : α
  s3 : α
  deriving DecidableEq, Repr

/-- The same value for every station. -/
def Four.all {α : Type} (x : α) : Four α := ⟨x, x, x, x⟩

/-- The value of one station. -/
def Four.get {α : Type} (v : Four α) (i : Stn) : α :=
  match i with
  | 0 => v.s0
  | 1 => v.s1
  | 2 => v.s2
  | 3 => v.s3

/-- The values with one station's value replaced. -/
def Four.set {α : Type} (v : Four α) (i : Stn) (x : α) : Four α :=
  match i with
  | 0 => ⟨x, v.s1, v.s2, v.s3⟩
  | 1 => ⟨v.s0, x, v.s2, v.s3⟩
  | 2 => ⟨v.s0, v.s1, x, v.s3⟩
  | 3 => ⟨v.s0, v.s1, v.s2, x⟩

end Sys2Proof
end

