-- ==== Sys2Proof/Syntax.lean ====
section
/-!
DEFINITION. The commands of the Narigon AT4: one constructor for each row of spec/opcode_table.json,
with the row's operands. A command is one step of the part, whole and indivisible (spec/95): a frame that
arrives on the cell ring, an event of the part's own timers and engines, or a command of the cell controller.
-/
namespace Sys2Proof

/-- The two passes of a ring cycle (spec/02, section 2.1). -/
inductive Pass where
  | outbound
  | returning
  deriving DecidableEq, Repr

/-- The roles of the channel map (spec/02, section 2.4). VALVE belongs to the cell, the others to a station. -/
inductive Role where
  | vib0 | vib1 | vib2 | vib3 | tach | press | temp | drive | valve
  deriving DecidableEq, Repr

/-- One block's work at a ring cycle close. The spec leaves open the order in which the works of one close
are taken where it says that the outcome depends on which is taken first (R8, R10, R40, R80, R97, R107, R125,
R145): CYCLE_FRAME carries that order as an operand (log entry 3). -/
inductive Work where
  /-- The router's silence reports as the station's controller takes them (R40). -/
  | silence (st : Stn)
  /-- The angle tracker's reading, history, index and speed gate work (R45 to R55). -/
  | tracker (st : Stn)
  /-- The profile executor's work (R60 to R81). -/
  | profile (st : Stn)
  /-- The station controller's test of PREP, FINISHING or STOPPING (R7, R8, R10, R15). -/
  | control (st : Stn)
  /-- The noise collector's work (R86, R87, R90 to R96). -/
  | collector (st : Stn)
  /-- The leak sequencer's counts (R125, R128, R133, R134, R138). -/
  | leak (st : Stn)
  /-- The purge count of the manifold arbiter (R132). -/
  | purge
  deriving DecidableEq, Repr

/-- The commands. Each docstring gives the row's rule; `tag` is the tag byte of a COMMAND frame (spec/11, 11.1). -/
inductive Instr where
  /-- POWER_ON (R196): power is applied; `straps` are the levels of ADDR5 to ADDR0 (R25). -/
  | powerOn (straps : Addr)
  /-- RESET_LINE_ASSERT (R24): the reset line is held active. -/
  | resetLineAssert
  /-- RESET_LINE_RELEASE (R196): the reset line is released; the straps are read again (R25). -/
  | resetLineRelease (straps : Addr)
  /-- CYCLE_FRAME (R27): a CYCLE frame arrives on a pass, `elapsed` microseconds of the part's own time
  reference after the last command that carried a time (log entry 6). `orders` gives, for each cycle close that
  the frame brings in turn, the order in which the works of that close are taken; an absent or empty order is the
  default one (log entry 3). -/
  | cycleFrame (pass : Pass) (frame : Frame) (elapsed : Nat) (orders : List (List Work))
  /-- RING_LOSS (R32): the loss timer reaches 1 ms; `order` is the order in which the stations' halts are taken. -/
  | ringLoss (order : List Stn)
  /-- COMMAND_FRAME (R185): a COMMAND frame arrives. -/
  | commandFrame (pass : Pass) (frame : Frame)
  /-- UNUSED_FRAME (R29): a frame of a kind the AT4 does not use, or a COMMAND frame not for it, arrives. -/
  | unusedFrame (pass : Pass) (frame : Frame)
  /-- SAMPLE_FRAME (R37): a VIB, TACH or TEMP frame arrives. -/
  | sampleFrame (pass : Pass) (frame : Frame)
  /-- PRESS_FRAME (R129): a PRESS frame arrives. -/
  | pressFrame (pass : Pass) (frame : Frame)
  /-- DRIVE_FRAME (R41): a DRIVE frame arrives. -/
  | driveFrame (pass : Pass) (frame : Frame)
  /-- VALVE_STATUS_FRAME (R42): a VALVE_STATUS frame arrives; `order` is the order in which halts are taken. -/
  | valveStatusFrame (pass : Pass) (frame : Frame) (order : List Stn)
  /-- SIGNAL_LOSS (R40): the missing count of the role of a station, or of CELL (`none`), reaches 2,000. -/
  | signalLoss (owner : Option Stn) (role : Role) (order : List Stn)
  /-- INDEX_TIMER_EXPIRY (R52). -/
  | indexTimerExpiry (st : Stn)
  /-- SPEED_GATE_COMPLETE (R53). -/
  | speedGateComplete (st : Stn)
  /-- STILL_GATES_EXPIRY (R54). -/
  | stillGatesExpiry (st : Stn)
  /-- PREP_TO_RUNNING (R7). -/
  | prepToRunning (st : Stn)
  /-- PREP_TIMEOUT (R8). -/
  | prepTimeout (st : Stn)
  /-- FINISHING_END (R10). -/
  | finishingEnd (st : Stn)
  /-- STOPPING_END (R15). -/
  | stoppingEnd (st : Stn)
  /-- REVERSAL_DWELL_END (R64). -/
  | reversalDwellEnd (st : Stn)
  /-- HOLD_END (R66). -/
  | holdEnd (st : Stn)
  /-- RUNG_DWELL_DONE (R70). -/
  | rungDwellDone (st : Stn)
  /-- RUNG_MEASURE_DONE (R70). -/
  | rungMeasureDone (st : Stn)
  /-- NOISE_STEP_END (R72). -/
  | noiseStepEnd (st : Stn)
  /-- LEAK_SEQUENCE_START (R124). -/
  | leakSequenceStart (st : Stn)
  /-- WAIT_LEAK_END (R74). -/
  | waitLeakEnd (st : Stn)
  /-- COLLECTOR_SETTLE_END (R86). -/
  | collectorSettleEnd (st : Stn)
  /-- WINDOW_START (R87). -/
  | windowStart (st : Stn)
  /-- WINDOW_COMPLETE (R95). -/
  | windowComplete (st : Stn)
  /-- WINDOW_OVERTIME (R96). -/
  | windowOvertime (st : Stn)
  /-- ANALYSIS_TAKE (R108). -/
  | analysisTake
  /-- EVALUATION_END (R109). -/
  | evaluationEnd
  /-- MANIFOLD_GRANT (R127). -/
  | manifoldGrant
  /-- MANIFOLD_TIMEOUT (R125). -/
  | manifoldTimeout (st : Stn)
  /-- FILL_TIMEOUT (R131). -/
  | fillTimeout (st : Stn)
  /-- PURGE_END (R132). -/
  | purgeEnd
  /-- LEAK_SETTLE_END (R133). -/
  | leakSettleEnd (st : Stn)
  /-- MEASURE_COMPLETE (R135). -/
  | measureComplete (st : Stn)
  /-- VENT_END (R138). -/
  | ventEnd (st : Stn)
  /-- DEFERRED_RELEASE (R147). -/
  | deferredRelease
  /-- START_AXLE (R5): command codes 0x80 to 0xFF, which carry the station and the variant slot (spec/11, 11.2). -/
  | startAxle (tag : Byte) (st : Stn) (slot : BitVec 5) (serial : Entry)
  /-- ABORT (R12). -/
  | abort (tag station mode : Byte)
  /-- CLEAR_STATION (R18). -/
  | clearStation (tag station : Byte)
  /-- SNAPSHOT (R20). -/
  | snapshot (tag station : Byte)
  /-- SNAPSHOT_READ (R21). -/
  | snapshotRead (tag : Byte)
  /-- LOAD_BEGIN (R155). -/
  | loadBegin (tag kind slot count : Byte)
  /-- LOAD_ENTRY (R157): command codes 0x20 to 0x7F, which carry the entry index, 0 to 95 (spec/11, 11.2). -/
  | loadEntry (tag : Byte) (index : Fin 96) (content : Entry)
  /-- LOAD_END (R158). -/
  | loadEnd (tag : Byte)
  /-- CLEAR_TABLE (R166). -/
  | clearTable (tag kind slot : Byte)
  /-- TABLE_STATUS (R167). -/
  | tableStatus (tag kind slot : Byte)
  /-- STORE_STATUS (R180). -/
  | storeStatus (tag : Byte)
  /-- FETCH_REPORT (R181). -/
  | fetchReport (tag segment : Byte)
  /-- RELEASE_REPORT (R182). -/
  | releaseReport (tag : Byte) (number : BitVec 16)
  /-- IDENT (R189). -/
  | ident (tag : Byte)
  /-- PART_RESET (R190): scope RUN 1 or ALL 2. -/
  | partReset (tag scope : Byte)
  /-- UNKNOWN_COMMAND (R187): a command code that names no command (0x00 and 0x0E to 0x1F). -/
  | unknownCommand (tag code : Byte)
  deriving DecidableEq, Repr

end Sys2Proof
end

