-- ==== Sys2Proof/Config.lean ====
section
/-!
DEFINITION. The values that spec/ leaves free. Each is a constant without a body: nothing can evaluate it, and a
statement holds for every value of it.
-/
namespace Sys2Proof

/-- The magnitude, in rpm, of the window speed of a completed window whose total is 0 mod 2^32. R95 divides by the
total and states no result there. DESIGN CHOICE: a free value that depends on the window's depth (log entry 10); safe. -/
opaque Config.speedOfZeroTotal : Nat → Nat

end Sys2Proof
end

