-- ==== Sys2Proof/Machine/State.lean ====
section
/-!
DEFINITION. The state of the Narigon AT4: every register, queue, counter, flag and store that the chapters of
spec/ give its thirteen blocks, the queue of commands that wait, and the state after reset.
-/
namespace Sys2Proof.Machine

open Sys2Proof

/-! ## Names of the manual -/

/-- FORWARD, REVERSE or NONE (spec/03, 3.1; spec/04, 4.2; spec/05, 5.1). -/
inductive Direction where
  | none | forward | reverse
  deriving DecidableEq, Repr

/-- Table kinds (spec/08, 8.1). -/
inductive Kind where
  | profile | limit | leak | variant | map | cell
  deriving DecidableEq, Repr

/-- Families of check lines (spec/09, 9.1). -/
inductive Family where
  | order | level | torque | leak
  deriving DecidableEq, Repr

/-- Grades (spec/09, 9.1). -/
inductive Grade where
  | must | watch | off
  deriving DecidableEq, Repr

/-- Outcomes of a check line (spec/09, 9.1). -/
inductive LineOutcome where
  | pass | fail | notMeasured
  deriving DecidableEq, Repr

/-- Reasons of a check line (spec/09, 9.1). -/
inductive Reason where
  | none | notReached | noWindow | retriesExhausted | manifoldTimeout | rise | tempInvalid | signal | gross
  deriving DecidableEq, Repr

/-- End kinds of a test (spec/11, 11.5). -/
inductive EndKind where
  | complete | earlyStop | aborted | halted
  deriving DecidableEq, Repr

/-- Final verdicts (R174). -/
inductive Verdict where
  | pass | passNote | incomplete | reject | aborted
  deriving DecidableEq, Repr

/-- Halt reasons (R16). -/
inductive HaltReason where
  | none | ringLost | signalLoss | noSignal | encoderLoss | overspeed | driveFault | valveFault
  deriving DecidableEq, Repr

/-- Station states (spec/01, 1.2). -/
inductive StationState where
  | idle | prep | running | finishing | stopping | halted
  deriving DecidableEq, Repr

/-- Collector states (spec/05, 5.1). -/
inductive CollectorState where
  | off | settling | armed | collecting | evaluating
  deriving DecidableEq, Repr

/-- Leak phases (spec/07, 7.2). -/
inductive Phase where
  | idle | queued | fill | settle | measure | ventWait | vent
  deriving DecidableEq, Repr

/-- States of a table slot (spec/08, 8.1). -/
inductive SlotState where
  | empty | loading | ready
  deriving DecidableEq, Repr

/-- The six causes of an invalid window (R96, R97). -/
inductive Cause where
  | disturbed | unsteady | defect | direction | index | overtime
  deriving DecidableEq, Repr

/-- Reply codes (R187). -/
inductive ReplyCode where
  | ok | busy | noTable | inUse | badArg | badTable | badVariant | storeFull | noChannel | notActive | notHalted
  | empty | wrongReport | sequence | unknown
  deriving DecidableEq, Repr

/-- The 24 alert sources (R191). -/
inductive Source where
  | halted (st : Stn)
  | reportReady (st : Stn)
  | manifoldTimeout (st : Stn)
  | retriesExhausted (st : Stn)
  | clamped (st : Stn)
  | ringRestored
  | cmdOverflow
  | loadAbandoned
  | storeHigh
  deriving DecidableEq, Repr

/-! ## Ring port and channel router (spec/02) -/

/-- The ring port's record (spec/02, 2.1). -/
structure Port where
  /-- The ring address read from the straps (R25). -/
  address : Addr
  /-- Ring state: true is UP, false is LOST. -/
  up : Bool
  /-- Number of the open ring cycle, or none. -/
  cycle : Option (BitVec 32)
  /-- Microseconds since the last good CYCLE frame, while UP (R32). -/
  lossTimer : Nat
  /-- The time at which the ring last became LOST (R32, R33). -/
  lossStart : Nat
  /-- The frames to append on the current outbound pass (R31). -/
  insertion : List Frame
  deriving DecidableEq, Repr

/-- The content of a sample frame with its status (R37). -/
inductive Sample where
  | vib (value : BitVec 16) (overload : Bool)
  | tach (edges : BitVec 16) (index : BitVec 8) (latched : BitVec 16)
  | press (pa : BitVec 24) (fault : Bool)
  | temp (centikelvin : BitVec 16) (fault : Bool)
  | drive (torque : BitVec 16) (ready fault : Bool)
  | valve (fault supplyLow : Bool)
  deriving DecidableEq, Repr

/-- Marks of a role's value (R38). -/
inductive Mark where
  | present | overload | missing
  deriving DecidableEq, Repr

/-- An entry of the channel map (spec/02, 2.4); `owner` is none for CELL. -/
structure MapEntry where
  base : Addr
  mask : Addr
  owner : Option Stn
  role : Role
  skew : Nat
  deriving DecidableEq, Repr

/-- A map entry as the router holds it (R35, R37). -/
structure Channel where
  entry : MapEntry
  /-- The seen flag for the open cycle. -/
  seen : Bool
  /-- The frame of the cycle. -/
  frame : Option Sample
  /-- The recorded source address. -/
  source : Option Addr
  deriving DecidableEq, Repr

/-- A role record (R36). -/
structure RoleRecord where
  owner : Option Stn
  role : Role
  skew : Nat
  /-- The held value. -/
  value : Sample
  /-- The mark for the cycle last closed. -/
  mark : Mark
  /-- The missing count, 0 to 65,535. -/
  missing : Nat
  /-- The missing count became 2,000 at the close in progress and its reports are not yet all taken (R40). -/
  silent : Bool
  /-- Source of the latest good frame taken for the role since the map was loaded (R31). -/
  source : Option Addr
  deriving DecidableEq, Repr

/-- The channel router's state. -/
structure Router where
  entries : List Channel
  roles : List RoleRecord
  deriving DecidableEq, Repr

/-! ## Angle tracker (spec/03) -/

/-- A history entry (R49). -/
structure HistoryEntry where
  cycle : BitVec 32
  revolution : BitVec 32
  bin : Nat
  direction : Direction
  valid : Bool
  deriving DecidableEq, Repr

/-- The tracker record (spec/03, 3.1). -/
structure Tracker where
  /-- true is TRACKING, false is STOPPED. -/
  tracking : Bool
  p : Nat
  reference : Option (BitVec 16 × BitVec 8)
  edgesAtIndex : BitVec 16
  position : Nat
  bin : Nat
  revolution : BitVec 32
  direction : Direction
  /-- Up to four entries, the newest first. -/
  history : List HistoryEntry
  indexLost : Bool
  indexTimer : Nat
  gateCount : Nat
  gateSum : Int
  speed : Option Int
  stillGates : Nat
  /-- INDEX was reported to the collector at the latest close (R47, R51). -/
  indexReport : Bool
  deriving DecidableEq, Repr

/-! ## Profile executor (spec/04) -/

/-- A loop frame (spec/04, 4.2). -/
structure LoopFrame where
  firstBody : Nat
  endIndex : Nat
  remaining : Nat
  deriving DecidableEq, Repr

/-- Rung phases (R69). -/
inductive RungPhase where
  | ramp | dwell | measure
  deriving DecidableEq, Repr

/-- The executor record (spec/04, 4.2). -/
structure Executor where
  step : Nat
  stepTimer : Nat
  /-- The loop stack, the innermost frame first. -/
  loops : List LoopFrame
  /-- In 1/1024 rpm. -/
  setpoint : Int
  /-- The setpoint in force for the cycle being closed (R61). -/
  inForce : Int
  remainder : Nat
  /-- The effective target, in 1/1024 rpm (R62). -/
  target : Int
  lastSign : Direction
  zeroRun : Nat
  torqueLimit : Nat
  rung : Nat
  movesLeft : Nat
  rungPhase : RungPhase
  dwellCount : Nat
  measureSpent : Bool
  torqueSum : Int
  torqueCount : Nat
  leakStarted : Bool
  /-- Pending abort mode: true is AT_STEP_END. -/
  pendingAbort : Bool
  deriving DecidableEq, Repr

/-! ## Noise collector (spec/05) -/

/-- A collector's job (R85). -/
structure Job where
  target : Nat
  quiet : Bool
  settle : Nat
  deriving DecidableEq, Repr

/-- The step report (R101). -/
inductive StepReport where
  | none | done | exhausted
  deriving DecidableEq, Repr

/-- The working fields of one vibration channel, 256 bins each (spec/05, 5.1). -/
structure Bins where
  sums : List Int
  counts : List Nat
  averages : List Int
  /-- The averaged waveform of the completed window (R95), kept for the engine (R99). -/
  waveform : List Int
  deriving DecidableEq, Repr

/-- The collector record (spec/05, 5.1). -/
structure Collector where
  state : CollectorState
  job : Option Job
  budget : Nat
  evaluated : Nat
  report : StepReport
  settleCount : Nat
  windowTimer : Nat
  leadIn : Bool
  openRevolution : BitVec 32
  direction : Direction
  firstBoundary : Option (BitVec 32)
  latestBoundary : Option (BitVec 32)
  revolutionsDone : Nat
  /-- In order of closing. -/
  lengths : List Nat
  /-- One for each of VIB0 to VIB3. -/
  channels : Four Bins
  placed : Nat
  defects : Nat
  exhausted : Bool
  windowSpeed : Int
  windowNumber : Nat
  deriving DecidableEq, Repr

/-! ## Analysis engine (spec/06) -/

/-- An evaluation in progress (spec/06, 6.1). -/
structure Evaluation where
  station : Stn
  number : Nat
  speed : Int
  discard : Bool
  /-- Microseconds since it began; it ends by 1,000 (R109). -/
  age : Nat
  deriving DecidableEq, Repr

/-- The engine: FREE when `evaluation` is none, BUSY otherwise. -/
structure Engine where
  /-- Oldest first. -/
  queue : List Stn
  evaluation : Option Evaluation
  deriving DecidableEq, Repr

/-! ## Leak sequencers and manifold arbiter (spec/07) -/

/-- Leak A or leak B. -/
inductive Which where
  | a | b
  deriving DecidableEq, Repr

/-- A leak record (spec/07, 7.1), and the working copy of one: there the durations are in ring cycles (R124). -/
structure LeakRecord where
  checkId : Nat
  grade : Grade
  target : Nat
  fillTimeout : Nat
  settle : Nat
  measure : Nat
  vent : Nat
  rateLimit : Nat
  riseLimit : Nat
  compensate : Bool
  deriving DecidableEq, Repr

/-- A leak detail block (R130, R137). -/
structure Detail where
  present : Bool
  p0 : Nat
  p1 : Nat
  t0 : Nat
  t1 : Nat
  decay : Int
  rate : Int
  /-- In ms. -/
  fillTime : Nat
  deriving DecidableEq, Repr

/-- Vent kinds (spec/07, 7.2). -/
inductive VentKind where
  | normal | forced
  deriving DecidableEq, Repr

/-- The leak sequencer's record (spec/07, 7.2). -/
structure Sequencer where
  phase : Phase
  which : Option Which
  copy : LeakRecord
  waitCount : Nat
  fillTimer : Nat
  fillCloses : Nat
  settleCount : Nat
  measureCount : Nat
  headPress : Nat
  headTemp : Nat
  tailPress : Nat
  tailTemp : Nat
  defects : Nat
  ventCount : Nat
  ventKind : VentKind
  detailA : Detail
  detailB : Detail
  deriving DecidableEq, Repr

/-- What the air gate holds back for a station (R143). -/
inductive Held where
  | grant | vent
  deriving DecidableEq, Repr

/-- The manifold arbiter's record (spec/07, 7.3). -/
structure Manifold where
  /-- Oldest first. -/
  queue : List Stn
  holder : Option Stn
  purging : Bool
  purgeCount : Nat
  quiet : List Stn
  /-- In the order entered. -/
  deferred : List (Stn × Held)
  closingOwed : Bool
  deriving DecidableEq, Repr

/-! ## Station controller (spec/01) -/

/-- A slot named with its generation. -/
structure SlotRef where
  slot : Nat
  generation : BitVec 16
  deriving DecidableEq, Repr

/-- A station's binding (spec/01, 1.1). -/
structure Binding where
  variant : Option SlotRef
  profile : Option SlotRef
  limit : Option SlotRef
  leakA : Option SlotRef
  leakB : Option SlotRef
  deriving DecidableEq, Repr

/-- A check line (spec/09, 9.1). -/
structure CheckLine where
  id : Nat
  family : Family
  grade : Grade
  outcome : LineOutcome
  reason : Reason
  evaluations : Nat
  worst : Int
  limit : Int
  speedAtWorst : Int
  windowAtWorst : Nat
  deriving DecidableEq, Repr

/-- The counters of a test (R19). -/
structure Counters where
  valid : Nat
  disturbed : Nat
  unsteady : Nat
  defect : Nat
  direction : Nat
  index : Nat
  overtime : Nat
  deferrals : Nat
  steps : Nat
  deriving DecidableEq, Repr

/-- The station record (spec/01, 1.1). -/
structure Station where
  state : StationState
  serial : Entry
  variantCode : BitVec 16
  binding : Binding
  /-- The required set (R3). -/
  required : List Role
  /-- The live run of each required role, in the order of `required` (R7). -/
  live : List Nat
  prepTimer : Nat
  /-- The check list, in ascending check id. -/
  lines : List CheckLine
  startCycle : BitVec 32
  endCycle : Option (BitVec 32)
  haltReason : HaltReason
  earlyStop : Bool
  clamped : Bool
  counters : Counters
  deriving DecidableEq, Repr

/-! ## Table store (spec/08) -/

/-- A slot record (spec/08, 8.1). An index whose written mark is clear holds none. -/
structure Slot where
  state : SlotState
  generation : BitVec 16
  references : Nat
  entryCount : Nat
  entries : List (Option Entry)
  deriving DecidableEq, Repr

/-- The table store (spec/08, 8.1). -/
structure Tables where
  profile : List Slot
  limit : List Slot
  leak : List Slot
  variant : List Slot
  map : List Slot
  cell : List Slot
  /-- The load in progress. -/
  loading : Option (Kind × Nat)
  deriving DecidableEq, Repr

/-! ## Report store (spec/09) -/

/-- A report record (R175). -/
structure Report where
  number : BitVec 16
  station : Stn
  serial : Entry
  variantCode : BitVec 16
  startCycle : BitVec 32
  endCycle : BitVec 32
  endKind : EndKind
  haltReason : HaltReason
  verdict : Verdict
  clamped : Bool
  counters : Counters
  detailA : Detail
  detailB : Detail
  lines : List CheckLine
  deriving DecidableEq, Repr

/-- The report store (spec/09, 9.4). -/
structure ReportStore where
  /-- Oldest first. -/
  held : List Report
  reservations : Nat
  nextNumber : BitVec 16
  deriving DecidableEq, Repr

/-! ## Command unit and alert unit (spec/10) -/

/-- A command frame as the command queue holds it (spec/10, 10.1). -/
structure Command where
  code : Byte
  tag : Byte
  args : List Byte
  deriving DecidableEq, Repr

/-- A reply (spec/10, 10.1). `second` holds the second frame's result bytes of an OK FETCH_REPORT (R198). -/
structure Reply where
  code : Byte
  tag : Byte
  reply : ReplyCode
  results : List Byte
  second : Option (List Byte)
  deriving DecidableEq, Repr

/-- The command unit (spec/10, 10.1). -/
structure CommandUnit where
  /-- Oldest first. -/
  queue : List Command
  reply : Option Reply
  deriving DecidableEq, Repr

/-- What the alert unit keeps for a source (spec/10, 10.4). -/
structure Alert where
  pending : Bool
  detail : BitVec 16
  report : BitVec 16
  deriving DecidableEq, Repr

/-- A snapshot capture (spec/01, 1.9). -/
structure Capture where
  station : Stn
  /-- The 32-byte snapshot record. -/
  record : List Byte
  deriving DecidableEq, Repr

/-! ## The part and the state -/

/-- Everything the spec gives the AT4, and the two things the model adds: its time in microseconds (`clock`, log
entry 6) and the frames it has put on the ring (`ringOut`, log entry 7). -/
structure Part where
  /-- The reset line is held active (R24). -/
  resetHeld : Bool
  /-- The part's own time reference, in microseconds since power-on or release. -/
  clock : Nat
  port : Port
  router : Router
  tracker : Four Tracker
  profile : Four Executor
  collector : Four Collector
  leak : Four Sequencer
  station : Four Station
  engine : Engine
  manifold : Manifold
  tables : Tables
  reports : ReportStore
  commands : CommandUnit
  /-- One for each source number 0 to 23 (R191). -/
  alerts : List Alert
  capture : Option Capture
  /-- The frames put on ring out, with the pass, in order. -/
  ringOut : List (Pass × Frame)
  deriving DecidableEq, Repr

/-- The state of the model: the part, and the commands that wait, first in, first out. -/
structure State where
  part : Part
  pending : List Instr
  deriving DecidableEq, Repr

/-- The part has no fault that stops it: a fault of a station halts the station and the part goes on (R16, R17),
and a refused command gets a reply code (R187). No constructor. -/
inductive Fault where
  deriving DecidableEq, Repr

/-- Why the model gives a command no next state. -/
inductive Refusal where
  /-- Raised by `exec` for a row that has no meaning yet; no row is left so. Safe. -/
  | notModelled (mnemonic : String)
  /-- Raised by a row's meaning when its operands are none that the ring or the part can present
  (`Sys2Proof.Instr.wellFormed` fails: a frame that is not 24 bytes or not of the row's kind, a serial that is not
  16 bytes, an order that is no order). Safe: log entry 16. -/
  | illFormed
  deriving DecidableEq, Repr

/-! ## Reset values -/

/-- R57. -/
def Tracker.reset : Tracker :=
  { tracking := false, p := 0, reference := none, edgesAtIndex := 0, position := 0, bin := 0, revolution := 0,
    direction := .none, history := [], indexLost := false, indexTimer := 0, gateCount := 0, gateSum := 0,
    speed := none, stillGates := 0, indexReport := false }

/-- R84, as after power-on. -/
def Executor.reset : Executor :=
  { step := 0, stepTimer := 0, loops := [], setpoint := 0, inForce := 0, remainder := 0, target := 0,
    lastSign := .none, zeroRun := 0, torqueLimit := 0, rung := 0, movesLeft := 0, rungPhase := .ramp,
    dwellCount := 0, measureSpent := false, torqueSum := 0, torqueCount := 0, leakStarted := false,
    pendingAbort := false }

/-- R89, R106: every bin sum, bin count and average accumulator 0. -/
def Bins.reset : Bins :=
  { sums := List.replicate 256 0, counts := List.replicate 256 0, averages := List.replicate 256 0,
    waveform := List.replicate 256 0 }

/-- R106. -/
def Collector.reset : Collector :=
  { state := .off, job := none, budget := 0, evaluated := 0, report := .none, settleCount := 0, windowTimer := 0,
    leadIn := false, openRevolution := 0, direction := .none, firstBoundary := none, latestBoundary := none,
    revolutionsDone := 0, lengths := [], channels := Four.all Bins.reset, placed := 0, defects := 0,
    exhausted := false, windowSpeed := 0, windowNumber := 0 }

/-- R123. -/
def Engine.reset : Engine := { queue := [], evaluation := none }

/-- A cleared detail block (R150, R151). -/
def Detail.reset : Detail :=
  { present := false, p0 := 0, p1 := 0, t0 := 0, t1 := 0, decay := 0, rate := 0, fillTime := 0 }

/-- R151: the working copy 0. -/
def LeakRecord.reset : LeakRecord :=
  { checkId := 0, grade := .must, target := 0, fillTimeout := 0, settle := 0, measure := 0, vent := 0,
    rateLimit := 0, riseLimit := 0, compensate := false }

/-- R151. -/
def Sequencer.reset : Sequencer :=
  { phase := .idle, which := none, copy := LeakRecord.reset, waitCount := 0, fillTimer := 0, fillCloses := 0,
    settleCount := 0, measureCount := 0, headPress := 0, headTemp := 0, tailPress := 0, tailTemp := 0,
    defects := 0, ventCount := 0, ventKind := .normal, detailA := Detail.reset, detailB := Detail.reset }

/-- R151, as after power-on. -/
def Manifold.reset : Manifold :=
  { queue := [], holder := none, purging := false, purgeCount := 0, quiet := [], deferred := [],
    closingOwed := false }

/-- R22. -/
def Binding.reset : Binding :=
  { variant := none, profile := none, limit := none, leakA := none, leakB := none }

/-- R5, R22. -/
def Counters.reset : Counters :=
  { valid := 0, disturbed := 0, unsteady := 0, defect := 0, direction := 0, index := 0, overtime := 0,
    deferrals := 0, steps := 0 }

/-- R22. -/
def Station.reset : Station :=
  { state := .idle, serial := List.replicate 16 0, variantCode := 0, binding := Binding.reset, required := [],
    live := [], prepTimer := 0, lines := [], startCycle := 0, endCycle := none, haltReason := .none,
    earlyStop := false, clamped := false, counters := Counters.reset }

/-- R168. -/
def Slot.reset : Slot :=
  { state := .empty, generation := 0, references := 0, entryCount := 0, entries := [] }

/-- R168, with the slot counts of spec/08, 8.1. -/
def Tables.reset : Tables :=
  { profile := List.replicate 16 Slot.reset, limit := List.replicate 16 Slot.reset,
    leak := List.replicate 8 Slot.reset, variant := List.replicate 32 Slot.reset,
    map := [Slot.reset], cell := [Slot.reset], loading := none }

/-- R184. -/
def ReportStore.reset : ReportStore := { held := [], reservations := 0, nextNumber := 0 }

/-- R195. -/
def Alert.reset : Alert := { pending := false, detail := 0, report := 0 }

/-- R43. -/
def Router.reset : Router := { entries := [], roles := [] }

/-- R34: ring LOST, no open cycle, the loss start at this moment. The loss timer, which runs only while the ring is UP
(R32), gets no value from R34: it is 0 (DESIGN CHOICE, log entry 6). -/
def Port.reset (straps : Addr) : Port :=
  { address := straps, up := false, cycle := none, lossTimer := 0, lossStart := 0, insertion := [] }

/-- Every block at its power-on values (R196), with the straps as read (R25). -/
def Part.powerOn (straps : Addr) : Part :=
  { resetHeld := false, clock := 0, port := Port.reset straps, router := Router.reset,
    tracker := Four.all Tracker.reset, profile := Four.all Executor.reset,
    collector := Four.all Collector.reset, leak := Four.all Sequencer.reset,
    station := Four.all Station.reset, engine := Engine.reset, manifold := Manifold.reset,
    tables := Tables.reset, reports := ReportStore.reset, commands := { queue := [], reply := none },
    alerts := List.replicate 24 Alert.reset, capture := none, ringOut := [] }

/-- The machine right after reset (R196). DESIGN CHOICE: the straps read 1 (log entry 1); unsafe. -/
def State.reset : State := { part := Part.powerOn 1, pending := [] }

end Sys2Proof.Machine
end

