-- ==== Sys2Proof/Machine/Operands.lean ====
section
/-!
DEFINITION. The operand forms of the AT4: byte fields, the check word and the frames (spec/11, 11.1), the codes
(11.5), the table entries (11.3), and the small arithmetic of spec/00_scope.md, Arithmetic.
-/
namespace Sys2Proof.Machine

open Sys2Proof

/-! ## Bytes (R197) -/

/-- Byte `i` of a frame, entry or argument field. -/
def byteAt (bs : List Byte) (i : Nat) : Byte := bs.getD i 0

/-- An unsigned field of one byte. -/
def u8 (bs : List Byte) (i : Nat) : Nat := (byteAt bs i).toNat

/-- A field of two bytes, the more significant first. -/
def be16 (bs : List Byte) (i : Nat) : BitVec 16 := byteAt bs i ++ byteAt bs (i + 1)

/-- A field of three bytes. -/
def be24 (bs : List Byte) (i : Nat) : BitVec 24 := byteAt bs i ++ be16 bs (i + 1)

/-- A field of four bytes. -/
def be32 (bs : List Byte) (i : Nat) : BitVec 32 := be16 bs i ++ be16 bs (i + 2)

/-- An unsigned field of two bytes. -/
def u16 (bs : List Byte) (i : Nat) : Nat := (be16 bs i).toNat

/-- A signed field of two bytes, two's complement. -/
def i16 (bs : List Byte) (i : Nat) : Int := (be16 bs i).toInt

/-- An unsigned field of three bytes. -/
def u24 (bs : List Byte) (i : Nat) : Nat := (be24 bs i).toNat

/-- Flag bit `k` of byte `i`. -/
def flagAt (bs : List Byte) (i k : Nat) : Bool := (byteAt bs i).getLsbD k

/-- The two bytes of a 16-bit value. -/
def out16 (v : BitVec 16) : List Byte := [v.extractLsb' 8 8, v.extractLsb' 0 8]

/-- The three bytes of a 24-bit value. -/
def out24 (v : BitVec 24) : List Byte := [v.extractLsb' 16 8, v.extractLsb' 8 8, v.extractLsb' 0 8]

/-- The four bytes of a 32-bit value. -/
def out32 (v : BitVec 32) : List Byte :=
  [v.extractLsb' 24 8, v.extractLsb' 16 8, v.extractLsb' 8 8, v.extractLsb' 0 8]

/-- A natural number in a byte. -/
def b8 (n : Nat) : Byte := BitVec.ofNat 8 n

/-- A natural number in two bytes. -/
def n16 (n : Nat) : List Byte := out16 (BitVec.ofNat 16 n)

/-- A signed number in two bytes. -/
def z16 (n : Int) : List Byte := out16 (BitVec.ofInt 16 n)

/-- A natural number in three bytes. -/
def n24 (n : Nat) : List Byte := out24 (BitVec.ofNat 24 n)

/-- A signed number in three bytes. -/
def z24 (n : Int) : List Byte := out24 (BitVec.ofInt 24 n)

/-- A signed number in four bytes. -/
def z32 (n : Int) : List Byte := out32 (BitVec.ofInt 32 n)

/-- The first `n` bytes, filled up with 0 (R187, R197: bytes that hold no field are 0). -/
def padTo (n : Nat) (bs : List Byte) : List Byte := (bs ++ List.replicate n 0).take n

/-- A byte of flags from bit 0 up. -/
def flagByte (flags : List Bool) : Byte :=
  b8 (flags.foldr (fun b acc => (if b then 1 else 0) + 2 * acc) 0)

/-! ## Arithmetic (spec/00_scope.md, Arithmetic) -/

/-- A count that stops at `top`. -/
def satSucc (top n : Nat) : Nat := if n < top then n + 1 else top

/-- Clamped to plus or minus `c`. -/
def clampTo (c : Nat) (v : Int) : Int :=
  if v > (c : Int) then (c : Int) else if v < -(c : Int) then -(c : Int) else v

/-- The largest integer whose square does not exceed `n`, from the most significant binary digit down. -/
def isqrtDigits (n : Nat) : Nat → Nat → Nat
  | 0, r => r
  | k + 1, r => isqrtDigits n k (if (r + 2 ^ k) * (r + 2 ^ k) ≤ n then r + 2 ^ k else r)

/-- isqrt (spec/00_scope.md): the root has at most half as many binary digits as `n`, rounded up. -/
def isqrt (n : Nat) : Nat := isqrtDigits n (Nat.log2 n / 2 + 1) 0

/-- The sign of a setpoint as a direction (R64). -/
def signOf (v : Int) : Direction := if v = 0 then .none else if v > 0 then .forward else .reverse

/-! ## The check word (R26) -/

/-- One message bit through the 16-bit register: shift, and combine with 0x1021 when the bit shifted out differs
from the message bit. -/
def crcBit (reg : BitVec 16) (bit : Bool) : BitVec 16 :=
  if reg.msb != bit then (reg <<< 1) ^^^ 0x1021#16 else reg <<< 1

/-- The eight bits of a byte, the most significant first. -/
def crcByte (reg : BitVec 16) (b : Byte) : BitVec 16 :=
  [7, 6, 5, 4, 3, 2, 1, 0].foldl (fun r k => crcBit r (b.getLsbD k)) reg

/-- The check word over a message, from a register of all ones. -/
def checkWord (message : List Byte) : BitVec 16 := message.foldl crcByte 0xFFFF#16

/-! ## Frames (spec/11, 11.1) -/

/-- Kind codes. -/
def kindCycle : Byte := 0x01
/-- VIB. -/
def kindVib : Byte := 0x10
/-- TACH. -/
def kindTach : Byte := 0x11
/-- PRESS. -/
def kindPress : Byte := 0x12
/-- TEMP. -/
def kindTemp : Byte := 0x13
/-- DRIVE. -/
def kindDrive : Byte := 0x14
/-- VALVE_STATUS. -/
def kindValveStatus : Byte := 0x15
/-- SETPOINT. -/
def kindSetpoint : Byte := 0x20
/-- VALVE_CMD. -/
def kindValveCmd : Byte := 0x21
/-- COMMAND. -/
def kindCommand : Byte := 0x30
/-- REPLY. -/
def kindReply : Byte := 0x31
/-- ALERT. -/
def kindAlert : Byte := 0x32

/-- The kind of a frame, byte 0. -/
def frameKind (f : Frame) : Byte := byteAt f 0

/-- The source address: the low six bits of byte 1 (R197). -/
def frameSource (f : Frame) : Addr := (byteAt f 1).setWidth 6

/-- The destination address: the low six bits of byte 2 (R197). -/
def frameDest (f : Frame) : Addr := (byteAt f 2).setWidth 6

/-- The cycle tag, byte 3. -/
def frameTag (f : Frame) : Byte := byteAt f 3

/-- The check word of bytes 0 to 21 stands in bytes 22 and 23 (R26). -/
def checkSound (f : Frame) : Bool := checkWord (f.take 22) == be16 f 22

/-- The low 8 bits of a cycle number. -/
def tagOf (cycle : BitVec 32) : Byte := cycle.setWidth 8

/-- The number a CYCLE frame carries. -/
def cycleNumber (f : Frame) : BitVec 32 := be32 f 4

/-- A frame with a payload of up to 18 bytes, the rest 0, and its check word (R31, R197). -/
def mkFrame (kind : Byte) (source dest : Addr) (tag : Byte) (payload : List Byte) : Frame :=
  let message := [kind, source.setWidth 8, dest.setWidth 8, tag] ++ padTo 18 payload
  message ++ out16 (checkWord message)

/-- The sample of a frame of a sample kind (spec/11, 11.1; R197: other bytes and bits are ignored). -/
def sampleOf (f : Frame) : Option Sample :=
  let k := frameKind f
  if k = kindVib then some (.vib (be16 f 4) (flagAt f 6 0))
  else if k = kindTach then some (.tach (be16 f 4) (byteAt f 6) (be16 f 7))
  else if k = kindPress then some (.press (be24 f 4) (flagAt f 7 0))
  else if k = kindTemp then some (.temp (be16 f 4) (flagAt f 6 0))
  else if k = kindDrive then some (.drive (be16 f 4) (flagAt f 6 0) (flagAt f 6 1))
  else if k = kindValveStatus then some (.valve (flagAt f 4 0) (flagAt f 4 1))
  else none

/-- The kind of sample that a role reads (spec/02, 2.4). -/
def roleReads (r : Role) (x : Sample) : Bool :=
  match r, x with
  | .vib0, .vib .. | .vib1, .vib .. | .vib2, .vib .. | .vib3, .vib .. => true
  | .tach, .tach .. => true
  | .press, .press .. => true
  | .temp, .temp .. => true
  | .drive, .drive .. => true
  | .valve, .valve .. => true
  | _, _ => false

/-- The value 0 of a role (R38, R43). -/
def roleZero (r : Role) : Sample :=
  match r with
  | .vib0 | .vib1 | .vib2 | .vib3 => .vib 0 false
  | .tach => .tach 0 0 0
  | .press => .press 0 false
  | .temp => .temp 0 false
  | .drive => .drive 0 false false
  | .valve => .valve false false

/-- A faulted frame (R37): PRESS, TEMP or VALVE_STATUS with its fault flag set. -/
def Sample.faulted (x : Sample) : Bool :=
  match x with
  | .press _ fault => fault
  | .temp _ fault => fault
  | .valve fault _ => fault
  | _ => false

/-- The overload flag of a VIB frame (R38). -/
def Sample.overloaded (x : Sample) : Bool :=
  match x with
  | .vib _ o => o
  | _ => false

/-- The sample value of a VIB role, signed. -/
def Sample.vibValue (x : Sample) : Int :=
  match x with
  | .vib v _ => v.toInt
  | _ => 0

/-- The pressure of a PRESS role, in Pa. -/
def Sample.pressure (x : Sample) : Nat :=
  match x with
  | .press v _ => v.toNat
  | _ => 0

/-- The temperature of a TEMP role, in 0.01 K. -/
def Sample.temperature (x : Sample) : Nat :=
  match x with
  | .temp v _ => v.toNat
  | _ => 0

/-- The torque of a DRIVE role, signed, in 0.1 N·m. -/
def Sample.torque (x : Sample) : Int :=
  match x with
  | .drive v _ _ => v.toInt
  | _ => 0

/-- The ready flag of a DRIVE role. -/
def Sample.driveReady (x : Sample) : Bool :=
  match x with
  | .drive _ r _ => r
  | _ => false

/-- The supply-low flag of a VALVE role. -/
def Sample.supplyLow (x : Sample) : Bool :=
  match x with
  | .valve _ low => low
  | _ => false

/-- The vibration role of a channel number. -/
def vibRole (ch : Stn) : Role :=
  match ch with
  | 0 => .vib0
  | 1 => .vib1
  | 2 => .vib2
  | 3 => .vib3

/-! ## Codes (spec/11, 11.5) -/

/-- Table kind codes. -/
def Kind.code (k : Kind) : Nat :=
  match k with
  | .profile => 1 | .limit => 2 | .leak => 3 | .variant => 4 | .map => 5 | .cell => 6

/-- The kind of a code. -/
def kindOfCode (n : Nat) : Option Kind :=
  match n with
  | 1 => some .profile | 2 => some .limit | 3 => some .leak | 4 => some .variant | 5 => some .map | 6 => some .cell
  | _ => none

/-- Slots of a kind (spec/08, 8.1). -/
def Kind.slots (k : Kind) : Nat :=
  match k with
  | .profile => 16 | .limit => 16 | .leak => 8 | .variant => 32 | .map => 1 | .cell => 1

/-- Least and greatest entry count of a kind (spec/08, 8.1). -/
def Kind.counts (k : Kind) : Nat × Nat :=
  match k with
  | .profile => (2, 67) | .limit => (1, 48) | .leak => (2, 2) | .variant => (2, 2) | .map => (1, 32) | .cell => (3, 3)

/-- Slot state codes. -/
def SlotState.code (x : SlotState) : Nat :=
  match x with
  | .empty => 0 | .loading => 1 | .ready => 2

/-- The role of a code. -/
def roleOfCode (n : Nat) : Option Role :=
  match n with
  | 0 => some .vib0 | 1 => some .vib1 | 2 => some .vib2 | 3 => some .vib3 | 4 => some .tach | 5 => some .press
  | 6 => some .temp | 7 => some .drive | 8 => some .valve | _ => none

/-- Family codes. -/
def Family.code (x : Family) : Nat :=
  match x with
  | .order => 0 | .level => 1 | .torque => 2 | .leak => 3

/-- Grade codes. -/
def Grade.code (x : Grade) : Nat :=
  match x with
  | .must => 0 | .watch => 1 | .off => 2

/-- The grade of a code; validation has made sure of a known one. -/
def gradeOfCode (n : Nat) : Grade :=
  match n with
  | 0 => .must | 1 => .watch | _ => .off

/-- Outcome codes. -/
def LineOutcome.code (x : LineOutcome) : Nat :=
  match x with
  | .pass => 0 | .fail => 1 | .notMeasured => 2

/-- Reason codes. -/
def Reason.code (x : Reason) : Nat :=
  match x with
  | .none => 0 | .notReached => 1 | .noWindow => 2 | .retriesExhausted => 3 | .manifoldTimeout => 4 | .rise => 5
  | .tempInvalid => 6 | .signal => 7 | .gross => 8

/-- End kind codes. -/
def EndKind.code (x : EndKind) : Nat :=
  match x with
  | .complete => 0 | .earlyStop => 1 | .aborted => 2 | .halted => 3

/-- Verdict codes. -/
def Verdict.code (x : Verdict) : Nat :=
  match x with
  | .pass => 0 | .passNote => 1 | .incomplete => 2 | .reject => 3 | .aborted => 4

/-- Halt reason codes. -/
def HaltReason.code (x : HaltReason) : Nat :=
  match x with
  | .none => 0 | .ringLost => 1 | .signalLoss => 2 | .noSignal => 3 | .encoderLoss => 4 | .overspeed => 5
  | .driveFault => 6 | .valveFault => 7

/-- Station state codes. -/
def StationState.code (x : StationState) : Nat :=
  match x with
  | .idle => 0 | .prep => 1 | .running => 2 | .finishing => 3 | .stopping => 4 | .halted => 5

/-- Collector state codes. -/
def CollectorState.code (x : CollectorState) : Nat :=
  match x with
  | .off => 0 | .settling => 1 | .armed => 2 | .collecting => 3 | .evaluating => 4

/-- Leak phase codes. -/
def Phase.code (x : Phase) : Nat :=
  match x with
  | .idle => 0 | .queued => 1 | .fill => 2 | .settle => 3 | .measure => 4 | .ventWait => 5 | .vent => 6

/-- Reply codes. -/
def ReplyCode.code (x : ReplyCode) : Nat :=
  match x with
  | .ok => 0 | .busy => 1 | .noTable => 2 | .inUse => 3 | .badArg => 4 | .badTable => 5 | .badVariant => 6
  | .storeFull => 7 | .noChannel => 8 | .notActive => 9 | .notHalted => 10 | .empty => 11 | .wrongReport => 12
  | .sequence => 13 | .unknown => 14

/-- Source numbers (R191). -/
def Source.number (x : Source) : Nat :=
  match x with
  | .halted st => st.val
  | .reportReady st => 4 + st.val
  | .manifoldTimeout st => 8 + st.val
  | .retriesExhausted st => 12 + st.val
  | .clamped st => 16 + st.val
  | .ringRestored => 20
  | .cmdOverflow => 21
  | .loadAbandoned => 22
  | .storeHigh => 23

/-- Command codes (spec/11, 11.2). -/
def codeIdent : Byte := 0x01
/-- LOAD_BEGIN. -/
def codeLoadBegin : Byte := 0x02
/-- LOAD_END. -/
def codeLoadEnd : Byte := 0x03
/-- CLEAR_TABLE. -/
def codeClearTable : Byte := 0x04
/-- TABLE_STATUS. -/
def codeTableStatus : Byte := 0x05
/-- ABORT. -/
def codeAbort : Byte := 0x06
/-- CLEAR_STATION. -/
def codeClearStation : Byte := 0x07
/-- SNAPSHOT. -/
def codeSnapshot : Byte := 0x08
/-- SNAPSHOT_READ. -/
def codeSnapshotRead : Byte := 0x09
/-- STORE_STATUS. -/
def codeStoreStatus : Byte := 0x0A
/-- FETCH_REPORT. -/
def codeFetchReport : Byte := 0x0B
/-- RELEASE_REPORT. -/
def codeReleaseReport : Byte := 0x0C
/-- PART_RESET. -/
def codePartReset : Byte := 0x0D
/-- LOAD_ENTRY of an index: 0x20 to 0x7F. -/
def codeLoadEntry (index : Nat) : Byte := b8 (0x20 + index)
/-- START_AXLE: bit 7 set, the station in bits 5 and 6, the variant slot in bits 0 to 4. -/
def codeStartAxle (st : Stn) (slot : BitVec 5) : Byte := b8 (0x80 + 32 * st.val + slot.toNat)

/-- A station number from an argument byte (R12, R18, R20). -/
def stationOfByte (b : Byte) : Option Stn :=
  match b.toNat with
  | 0 => some 0 | 1 => some 1 | 2 => some 2 | 3 => some 3 | _ => none

/-! ## Table entries (spec/11, 11.3) -/

/-- A HOLD step's torque check (spec/04, 4.1). -/
structure TorqueCheck where
  id : Nat
  grade : Grade
  minimum : Int
  maximum : Int
  deriving DecidableEq, Repr

/-- The steps of a profile (spec/04, 4.1). -/
inductive Step where
  | ramp (target : Int) (rate limit : Nat)
  | hold (duration limit : Nat) (check : Option TorqueCheck)
  | ladder (start : Nat) (up : Bool) (rate limit moves : Nat) (wrap : Bool) (dwell : Nat) (measure : Bool) (budget : Nat)
  | noise (windows budget : Nat) (quiet : Bool) (limit settle : Nat)
  | leak (which : Which) (overlap : Bool)
  | waitLeak
  | repeatLoop (count : Nat)
  | endRepeat
  | exitIfFailed
  | stopIfRejected
  | finish
  deriving DecidableEq, Repr

/-- The torque check that a HOLD entry carries, when its check-present byte is 1. -/
def holdCheck (e : Entry) : Option TorqueCheck :=
  if u8 e 7 = 1 then some ⟨u8 e 8, gradeOfCode (u8 e 9), i16 e 10, i16 e 12⟩ else none

/-- The step of a step entry; none for a step kind that is not one of the eleven. -/
def stepOf (e : Entry) : Option Step :=
  match u8 e 0 with
  | 1 => some (.ramp (i16 e 1) (u16 e 3) (u16 e 5))
  | 2 => some (.hold (u16 e 1) (u16 e 5) (holdCheck e))
  | 3 => some (.ladder (u8 e 1) (u8 e 2 == 0) (u16 e 3) (u16 e 5) (u8 e 7) (u8 e 8 == 1) (u16 e 9) (u8 e 11 == 1) (u8 e 12))
  | 4 => some (.noise (u8 e 1) (u8 e 2) (u8 e 3 == 1) (u16 e 5) (u16 e 9))
  | 5 => some (.leak (if u8 e 1 = 0 then .a else .b) (u8 e 2 == 1))
  | 6 => some .waitLeak
  | 7 => some (.repeatLoop (u8 e 1))
  | 8 => some .endRepeat
  | 9 => some .exitIfFailed
  | 10 => some .stopIfRejected
  | 11 => some .finish
  | _ => none

/-- The encoder edges per revolution of a profile header. -/
def headerP (e : Entry) : Nat := u16 e 0

/-- The step count of a profile header. -/
def headerSteps (e : Entry) : Nat := u8 e 2

/-- The ladder-present flag of a profile header. -/
def headerLadder (e : Entry) : Bool := u8 e 3 == 1

/-- Step `i` of a profile table. -/
def profileStep (table : List Entry) (i : Nat) : Option Step :=
  if i < headerSteps (table.getD 0 []) then stepOf (table.getD (i + 1) []) else none

/-- Rung `r` of a profile table's ladder, in rpm. -/
def profileRung (table : List Entry) (r : Nat) : Int :=
  i16 (table.getD (headerSteps (table.getD 0 []) + 1 + r / 8) []) (2 * (r % 8))

/-- A limit entry (R117). -/
structure LimitEntry where
  checkId : Nat
  family : Family
  channel : Stn
  grade : Grade
  order : Nat
  low : Int
  high : Int
  limit : Nat
  deriving DecidableEq, Repr

/-- The fields of a limit entry. -/
def limitOf (e : Entry) : LimitEntry :=
  { checkId := u8 e 0, family := if u8 e 1 = 0 then .order else .level, channel := Fin.ofNat 4 (u8 e 2),
    grade := gradeOfCode (u8 e 3), order := u8 e 4, low := i16 e 5, high := i16 e 7, limit := u24 e 9 }

/-- The leak record of a LEAK table, durations in ms (spec/07, 7.1). -/
def leakOf (table : List Entry) : LeakRecord :=
  let e0 := table.getD 0 []
  let e1 := table.getD 1 []
  { checkId := u8 e0 0, grade := gradeOfCode (u8 e0 1), target := u24 e0 2, fillTimeout := u16 e0 5,
    settle := u16 e0 7, measure := u16 e0 9, vent := u16 e0 11, rateLimit := u24 e1 0, riseLimit := u24 e1 3,
    compensate := u8 e1 6 == 1 }

/-- A variant record (R163). -/
structure Variant where
  code : BitVec 16
  profile : Nat
  limit : Option Nat
  leakA : Option Nat
  leakB : Option Nat
  depthCode : Nat
  tolerance : Nat
  arcStart : Nat
  arcEnd : Nat
  timeLimit : Nat
  deriving DecidableEq, Repr

/-- A slot byte: 0xFF names none. -/
def slotByte (n : Nat) : Option Nat := if n = 255 then none else some n

/-- The variant record of a VARIANT table. -/
def variantOf (table : List Entry) : Variant :=
  let e0 := table.getD 0 []
  let e1 := table.getD 1 []
  { code := be16 e0 0, profile := u8 e0 2, limit := slotByte (u8 e0 3), leakA := slotByte (u8 e0 4),
    leakB := slotByte (u8 e0 5), depthCode := u8 e1 0, tolerance := u8 e1 1, arcStart := u8 e1 2,
    arcEnd := u8 e1 3, timeLimit := u16 e1 4 }

/-- A bin of the exclusion arc (R91). -/
def Variant.excludes (v : Variant) (bin : Nat) : Bool :=
  if v.arcStart < v.arcEnd then decide (v.arcStart ≤ bin ∧ bin < v.arcEnd)
  else if v.arcEnd < v.arcStart then decide (v.arcStart ≤ bin ∨ bin < v.arcEnd)
  else false

/-- The number of bins the arc excludes (R163). -/
def Variant.arcLength (v : Variant) : Nat :=
  if v.arcStart < v.arcEnd then v.arcEnd - v.arcStart
  else if v.arcEnd < v.arcStart then 256 - v.arcStart + v.arcEnd
  else 0

/-- The fields of a MAP entry (spec/02, 2.4). -/
def mapEntryOf (e : Entry) : MapEntry :=
  { base := (byteAt e 0).setWidth 6, mask := (byteAt e 1).setWidth 6,
    owner := if u8 e 2 < 4 then some (Fin.ofNat 4 (u8 e 2)) else none,
    role := (roleOfCode (u8 e 3)).getD .valve, skew := u8 e 4 }

/-- The cell settings (R165). -/
structure Cell where
  ceiling : Nat
  stopRamp : Nat
  dwell : Nat
  purge : Nat
  waitLimit : Nat
  maskLevel : Nat
  /-- By source number. -/
  priorities : List Nat
  deriving DecidableEq, Repr

/-- The defaults of R165, with the default priorities of R193 in source number order. -/
def Cell.defaults : Cell :=
  { ceiling := 3000, stopRamp := 2000, dwell := 500, purge := 300, waitLimit := 30000, maskLevel := 0,
    priorities := [3, 3, 3, 3, 2, 2, 2, 2, 1, 1, 1, 1, 1, 1, 1, 1, 0, 0, 0, 0, 3, 2, 1, 2] }

/-- The settings of a CELL table. -/
def cellOf (table : List Entry) : Cell :=
  let e0 := table.getD 0 []
  { ceiling := u16 e0 0, stopRamp := u16 e0 2, dwell := u16 e0 4, purge := u16 e0 6, waitLimit := u16 e0 8,
    maskLevel := u8 e0 10,
    priorities := (List.range 16).map (fun i => u8 (table.getD 1 []) i)
      ++ (List.range 8).map (fun i => u8 (table.getD 2 []) i) }

/-! ## Report segments (R176; spec/11, 11.4) -/

/-- A speed as its segment serves it: outside the signed 16-bit range, the nearer bound. -/
def servedSpeed (v : Int) : Int := if v > 32767 then 32767 else if v < -32768 then -32768 else v

/-- The segments of a leak detail block: present flag and figures, then D and the rate. A block whose present
flag is clear is served as 0 in every field (R175; log entry 18). -/
def detailSegments (d : Detail) : List Entry :=
  if d.present then
    [padTo 16 ([1] ++ n24 d.p0 ++ n24 d.p1 ++ n16 d.t0 ++ n16 d.t1 ++ n16 (min d.fillTime 65535)),
     padTo 16 (z32 d.decay ++ z32 d.rate)]
  else [padTo 16 [], padTo 16 []]

/-- The segment of a check line. -/
def lineSegment (l : CheckLine) : Entry :=
  padTo 16 ([b8 l.id, b8 (l.family.code + 4 * l.grade.code + 16 * l.outcome.code), b8 l.reason.code,
    b8 l.evaluations] ++ z32 l.worst ++ z32 l.limit ++ z16 (servedSpeed l.speedAtWorst) ++ n16 l.windowAtWorst)

/-- The segments of a report record, segment 0 first. -/
def reportSegments (r : Report) : List Entry :=
  [padTo 16 ([b8 (r.station.val + 4 * r.endKind.code + 16 * (if r.clamped then 1 else 0) + 32 * r.verdict.code),
      b8 r.haltReason.code, b8 r.lines.length] ++ out16 r.variantCode ++ out32 r.startCycle ++ out32 r.endCycle
      ++ n16 r.counters.steps),
   padTo 16 r.serial,
   padTo 16 (n16 r.counters.valid ++ n16 r.counters.disturbed ++ n16 r.counters.unsteady ++ n16 r.counters.defect
      ++ n16 r.counters.direction ++ n16 r.counters.index ++ n16 r.counters.overtime ++ n16 r.counters.deferrals)]
  ++ detailSegments r.detailA ++ detailSegments r.detailB ++ r.lines.map lineSegment

end Sys2Proof.Machine
end

