-- ==== Sys2Proof/Machine/Flags.lean ====
section
/-!
DEFINITION. The named updates of the part's record (one station's block at a time), the cell settings in force, and
the flags computed from the state: alert pending flags (R191), valve states (spec/07, 7.3), air events (R141).
-/
namespace Sys2Proof.Machine

open Sys2Proof

/-! ## One block at a time -/

/-- Update a station's record. -/
def Part.modStation (p : Part) (st : Stn) (f : Station → Station) : Part :=
  { p with station := p.station.set st (f (p.station.get st)) }

/-- Update a station's tracker. -/
def Part.modTracker (p : Part) (st : Stn) (f : Tracker → Tracker) : Part :=
  { p with tracker := p.tracker.set st (f (p.tracker.get st)) }

/-- Update a station's executor. -/
def Part.modProfile (p : Part) (st : Stn) (f : Executor → Executor) : Part :=
  { p with profile := p.profile.set st (f (p.profile.get st)) }

/-- Update a station's collector. -/
def Part.modCollector (p : Part) (st : Stn) (f : Collector → Collector) : Part :=
  { p with collector := p.collector.set st (f (p.collector.get st)) }

/-- Update a station's leak sequencer. -/
def Part.modLeak (p : Part) (st : Stn) (f : Sequencer → Sequencer) : Part :=
  { p with leak := p.leak.set st (f (p.leak.get st)) }

/-- Update the manifold arbiter. -/
def Part.modManifold (p : Part) (f : Manifold → Manifold) : Part := { p with manifold := f p.manifold }

/-- Update the analysis engine. -/
def Part.modEngine (p : Part) (f : Engine → Engine) : Part := { p with engine := f p.engine }

/-- Update the router. -/
def Part.modRouter (p : Part) (f : Router → Router) : Part := { p with router := f p.router }

/-- Update the table store. -/
def Part.modTables (p : Part) (f : Tables → Tables) : Part := { p with tables := f p.tables }

/-- Update the report store. -/
def Part.modReports (p : Part) (f : ReportStore → ReportStore) : Part := { p with reports := f p.reports }

/-- Update the ring port. -/
def Part.modPort (p : Part) (f : Port → Port) : Part := { p with port := f p.port }

/-- Update the command unit. -/
def Part.modCommands (p : Part) (f : CommandUnit → CommandUnit) : Part := { p with commands := f p.commands }

/-! ## Stations -/

/-- The active states (spec/00_scope.md, Terms). -/
def StationState.active (x : StationState) : Bool :=
  match x with
  | .prep | .running | .finishing | .stopping => true
  | .idle | .halted => false

/-- A station in an active state. -/
def Part.activeAt (p : Part) (st : Stn) : Bool := (p.station.get st).state.active

/-- Any station in an active state. -/
def Part.anyActive (p : Part) : Bool := allStations.any p.activeAt

/-- The current cycle number (spec/00_scope.md, Time). -/
def Part.cycleNow (p : Part) : BitVec 32 := p.port.cycle.getD 0

/-- A counter of R19 that stops at 65,535. -/
def bump (n : Nat) : Nat := satSucc 65535 n

/-! ## Table slots -/

/-- The slots of a kind. -/
def Tables.slots (t : Tables) (k : Kind) : List Slot :=
  match k with
  | .profile => t.profile
  | .limit => t.limit
  | .leak => t.leak
  | .variant => t.variant
  | .map => t.map
  | .cell => t.cell

/-- A slot by kind and number; a number outside the kind's slots reads as an EMPTY slot. -/
def Tables.slot (t : Tables) (k : Kind) (n : Nat) : Slot := (t.slots k).getD n Slot.reset

/-- Replace one slot. -/
def Tables.setSlot (t : Tables) (k : Kind) (n : Nat) (x : Slot) : Tables :=
  match k with
  | .profile => { t with profile := t.profile.set n x }
  | .limit => { t with limit := t.limit.set n x }
  | .leak => { t with leak := t.leak.set n x }
  | .variant => { t with variant := t.variant.set n x }
  | .map => { t with map := t.map.set n x }
  | .cell => { t with cell := t.cell.set n x }

/-- The entries of a slot; an unwritten index reads as nothing. -/
def Slot.table (x : Slot) : List Entry := x.entries.map (fun e => e.getD [])

/-- The entries of the slot that a binding names. -/
def Part.boundTable (p : Part) (k : Kind) (r : Option SlotRef) : List Entry :=
  match r with
  | some ref => (p.tables.slot k ref.slot).table
  | none => []

/-- The station's bound profile table (R6). -/
def Part.profileTable (p : Part) (st : Stn) : List Entry :=
  p.boundTable .profile (p.station.get st).binding.profile

/-- The station's bound variant record (R6). -/
def Part.variantAt (p : Part) (st : Stn) : Variant :=
  variantOf (p.boundTable .variant (p.station.get st).binding.variant)

/-- The cell settings in force: those of the CELL table while its slot is READY, the defaults otherwise (R165). -/
def Part.cell (p : Part) : Cell :=
  let x := p.tables.slot .cell 0
  if x.state = .ready then cellOf x.table else Cell.defaults

/-! ## Roles -/

/-- The owner under which a station's role stands in the map: CELL for VALVE. -/
def roleOwner (st : Stn) (r : Role) : Option Stn := if r = .valve then none else some st

/-- The role record of an owner and role, if the map holds one (R36). -/
def Part.roleRecord (p : Part) (owner : Option Stn) (r : Role) : Option RoleRecord :=
  p.router.roles.find? (fun x => x.owner = owner ∧ x.role = r)

/-- The role record that a station reads. -/
def Part.roleAt (p : Part) (st : Stn) (r : Role) : Option RoleRecord := p.roleRecord (roleOwner st r) r

/-! ## Alert flags (R191, R194) -/

/-- Raise a source: it becomes pending, and its detail and report number are replaced. -/
def Part.raise (p : Part) (x : Source) (detail : BitVec 16) (report : BitVec 16) : Part :=
  { p with alerts := p.alerts.set x.number { pending := true, detail := detail, report := report } }

/-- What is kept for a source number. -/
def Part.alertAt (p : Part) (n : Nat) : Alert := p.alerts.getD n Alert.reset

/-- Eligible: pending, and the priority not below the mask level (R193). -/
def Part.eligible (p : Part) (n : Nat) : Bool :=
  (p.alertAt n).pending && decide (p.cell.maskLevel ≤ p.cell.priorities.getD n 0)

/-- The better of two source numbers: higher priority, then lower number (R194). -/
def betterSource (pri : List Nat) (best : Option Nat) (n : Nat) : Option Nat :=
  match best with
  | none => some n
  | some m => if pri.getD m 0 < pri.getD n 0 then some n else some m

/-- The alert unit's choice (R194). -/
def Part.alertChoice (p : Part) : Option Nat :=
  ((List.range 24).filter p.eligible).foldl (betterSource p.cell.priorities) none

/-- The station byte of an ALERT frame: the station of a per-station source, or 0xFF (R192). -/
def sourceStation (n : Nat) : Byte := if n < 20 then b8 (n % 4) else 0xFF

/-! ## Valves and air events (spec/07) -/

/-- The station's fill valve is commanded open. -/
def Part.filling (p : Part) (st : Stn) : Bool := decide ((p.leak.get st).phase = .fill)

/-- The station's vent valve is commanded open. -/
def Part.venting (p : Part) (st : Stn) : Bool := decide ((p.leak.get st).phase = .vent)

/-- Any valve is commanded open (spec/07, 7.3; R148). -/
def Part.anyValveOpen (p : Part) : Bool :=
  p.manifold.holder.isSome || p.manifold.purging || allStations.any (fun st => p.filling st || p.venting st)

/-- An air event is in progress (R141). -/
def Part.airEvent (p : Part) : Bool :=
  p.manifold.purging || allStations.any (fun st => p.filling st || p.venting st)

/-- Set the closing owed flag when a valve has closed and none is open (R148). -/
def Part.noteClosed (p : Part) : Part :=
  if p.anyValveOpen then p else p.modManifold (fun m => { m with closingOwed := true })

/-- The deferral count of a station rises (R19, R143). -/
def Part.countDeferral (p : Part) (st : Stn) : Part :=
  p.modStation st (fun x => { x with counters := { x.counters with deferrals := bump x.counters.deferrals } })

/-! ## Check lines -/

/-- Update the line of a check id. -/
def updateLine (id : Nat) (f : CheckLine → CheckLine) (ls : List CheckLine) : List CheckLine :=
  ls.map (fun l => if l.id = id then f l else l)

/-- Update the line of a check id in a station's check list. -/
def Part.modLine (p : Part) (st : Stn) (id : Nat) (f : CheckLine → CheckLine) : Part :=
  p.modStation st (fun x => { x with lines := updateLine id f x.lines })

/-- The provisional verdict is REJECT (R173). -/
def rejected (ls : List CheckLine) : Bool := ls.any (fun l => l.grade = .must && l.outcome = .fail)

/-- A line that is FAIL keeps outcome and reason; any other line takes a new outcome and reason (R169). -/
def CheckLine.settle (l : CheckLine) (o : LineOutcome) (r : Reason) : CheckLine :=
  if l.outcome = .fail then l else { l with outcome := o, reason := r }

/-- An evaluation that counts: the evaluations rise, stopping at 255. -/
def CheckLine.count (l : CheckLine) : CheckLine := { l with evaluations := satSucc 255 l.evaluations }

end Sys2Proof.Machine
end

