-- ==== Sys2Proof/Machine/Analysis.lean ====
section
/-!
DEFINITION. Chapter 6: the analysis engine, its queue, the sine table, the order and level metrics, and the noise
check lines.
-/
namespace Sys2Proof.Machine

open Sys2Proof

/-! ## Sine table (R113) -/

/-- The first quarter S[0] to S[64]: 32,767 times sin(2 pi i / 256), rounded to nearest. -/
def sineQuarter : List Int :=
  [0, 804, 1608, 2410, 3212, 4011, 4808, 5602, 6393, 7179, 7962, 8739, 9512,
   10278, 11039, 11793, 12539, 13279, 14010, 14732, 15446, 16151, 16846, 17530, 18204, 18868,
   19519, 20159, 20787, 21403, 22005, 22594, 23170, 23731, 24279, 24811, 25329, 25832, 26319,
   26790, 27245, 27683, 28105, 28510, 28898, 29268, 29621, 29956, 30273, 30571, 30852, 31113,
   31356, 31580, 31785, 31971, 32137, 32285, 32412, 32521, 32609, 32678, 32728, 32757, 32767]

/-- S[i], i taken mod 256, from the first quarter by the symmetries of R113. -/
def sine (i : Nat) : Int :=
  let j := i % 256
  if j ≤ 64 then sineQuarter.getD j 0
  else if j ≤ 128 then sineQuarter.getD (128 - j) 0
  else if j ≤ 192 then -(sineQuarter.getD (j - 128) 0)
  else -(sineQuarter.getD (256 - j) 0)

/-- C[i] = S[(i + 64) mod 256]. -/
def cosine (i : Nat) : Int := sine (i + 64)

/-! ## Metrics (R114, R115) -/

/-- The sum over b of x[b] times table entry (k b) mod 256, from bin `b` on. -/
def waveSum (table : Nat → Int) (k : Nat) : List Int → Nat → Int
  | [], _ => 0
  | x :: xs, b => x * table (k * b) + waveSum table k xs (b + 1)

/-- The amplitude A at order k (R114). -/
def amplitude (wave : List Int) (k : Nat) : Nat :=
  let re := waveSum cosine k wave 0 / 32768
  let im := waveSum sine k wave 0 / 32768
  min (isqrt (re.natAbs * re.natAbs + im.natAbs * im.natAbs) / 32) 131071

/-- The sum of squares of a waveform. -/
def squareSum : List Int → Nat
  | [] => 0
  | x :: xs => x.natAbs * x.natAbs + squareSum xs

/-- The level L (R115). -/
def level (wave : List Int) : Nat := min (isqrt (squareSum wave / 16)) 131071

/-- The metric of a limit entry on its channel's waveform. -/
def metric (e : LimitEntry) (channels : Four Bins) : Nat :=
  let wave := (channels.get e.channel).waveform
  match e.family with
  | .order => amplitude wave e.order
  | _ => level wave

/-! ## Noise lines (R118 to R120) -/

/-- In band: the window speed is not below band low and not above band high (R118). -/
def LimitEntry.inBand (e : LimitEntry) (speed : Int) : Bool := decide (e.low ≤ speed ∧ speed ≤ e.high)

/-- One evaluation of a noise line with value `v` (R119, R120). -/
def noiseLine (v : Nat) (speed : Int) (number : Nat) (l : CheckLine) : CheckLine :=
  let larger := l.evaluations = 0 ∨ l.worst < (v : Int)
  { l with
    evaluations := satSucc 255 l.evaluations
    reason := .none
    outcome := if l.limit < (v : Int) then .fail else if l.outcome = .fail then .fail else .pass
    worst := if larger then (v : Int) else l.worst
    speedAtWorst := if larger then speed else l.speedAtWorst
    windowAtWorst := if larger then number else l.windowAtWorst }

/-- The lines after one entry of the limit table (R118). -/
def noiseEntry (channels : Four Bins) (speed : Int) (number : Nat) (ls : List CheckLine) (e : LimitEntry) :
    List CheckLine :=
  if e.inBand speed then updateLine e.checkId (noiseLine (metric e channels) speed number) ls else ls

/-- The entries of the station's bound limit table, none where the variant names no limit table (R117, R121). -/
def Part.limitEntries (p : Part) (st : Stn) : List LimitEntry :=
  (p.boundTable .limit (p.station.get st).binding.limit).map limitOf

/-- All noise lines that an evaluation updates, together (R109, R118). -/
def Part.writeNoiseLines (p : Part) (e : Evaluation) : Part :=
  let c := p.collector.get e.station
  let entries := p.limitEntries e.station
  p.modStation e.station (fun x => { x with lines := entries.foldl (noiseEntry c.channels e.speed e.number) x.lines })

/-! ## The engine and its queue -/

/-- The FREE engine takes the oldest entry; the evaluation of that station's window begins (R108). -/
def Part.analysisTake (p : Part) : Part :=
  match p.engine.evaluation, p.engine.queue with
  | none, st :: rest =>
    let c := p.collector.get st
    let e : Evaluation := { station := st, number := c.windowNumber, speed := c.windowSpeed, discard := false, age := 0 }
    p.modEngine (fun _ => { queue := rest, evaluation := some e })
  | _, _ => p

/-- A station joins the tail of the queue (R107), and a FREE engine takes it at once (R108). -/
def Part.analysisJoin (p : Part) (st : Stn) : Part :=
  (p.modEngine (fun g => { g with queue := g.queue ++ [st] })).analysisTake

/-- The collector is returned at the end of an evaluation (R100). In OFF it has no job (spec/05, 5.1; log entry 27). -/
def Collector.returned (c : Collector) : Collector :=
  let n := c.evaluated + 1
  if (c.job.map Job.target).getD 0 ≤ n then { c with evaluated := n, state := .off, job := none, report := .done }
  else { c with evaluated := n, state := .armed, windowTimer := 0 }

/-- An evaluation ends (R109): the lines are written and the collector is returned, or, with the discard mark set,
nothing is written and the collector enters OFF (R111). The engine takes the next entry. -/
def Part.evaluationEnd (p : Part) : Part :=
  match p.engine.evaluation with
  | none => p
  | some e =>
    let p := p.modEngine (fun g => { g with evaluation := none })
    let p := if e.discard then p.modCollector e.station (fun c => { c with state := .off, job := none, report := .none })
      else (p.writeNoiseLines e).modCollector e.station Collector.returned
    p.analysisTake

/-- A START_AXLE abandons the discard-marked evaluation of its station (R111). -/
def Part.abandonEvaluation (p : Part) (st : Stn) : Part :=
  match p.engine.evaluation with
  | some e => if e.station = st ∧ e.discard then p.evaluationEnd else p
  | none => p

end Sys2Proof.Machine
end

