-- ==== Sys2Proof/Machine/Ops.lean ====
section
/-!
DEFINITION. The operations that several blocks share: how a noise attempt ends, the air gate and the grant of the
supply, the abandonment of a station's work, the report write, and the stop and halt of a station.
-/
namespace Sys2Proof.Machine

open Sys2Proof

/-! ## The end of a noise attempt (R98) -/

/-- One invalid window of a cause (R19). -/
def Counters.invalid (k : Counters) (cause : Cause) : Counters :=
  match cause with
  | .disturbed => { k with disturbed := bump k.disturbed }
  | .unsteady => { k with unsteady := bump k.unsteady }
  | .defect => { k with defect := bump k.defect }
  | .direction => { k with direction := bump k.direction }
  | .index => { k with index := bump k.index }
  | .overtime => { k with overtime := bump k.overtime }

/-- A station leaves the quiet holders (R142). -/
def Part.leaveQuiet (p : Part) (st : Stn) : Part :=
  p.modManifold (fun m => { m with quiet := m.quiet.filter (fun x => x ≠ st) })

/-- A collector after an invalid attempt: a new attempt while budget is left, or OFF and EXHAUSTED (R98). In OFF it has no
job (spec/05, 5.1; log entry 27). -/
def Collector.retry (c : Collector) : Collector :=
  if 0 < c.budget then { c with state := .armed, budget := c.budget - 1, windowTimer := 0 }
  else { c with state := .off, job := none, report := .exhausted, exhausted := true }

/-- An attempt ends with a cause (R98). Leaving the quiet holders may end the air gate's holding back: the caller
settles the gate (`Part.gateSettle`) once the whole event is taken. -/
def Part.attemptEnds (p : Part) (st : Stn) (cause : Cause) : Part :=
  let spent := (p.collector.get st).budget = 0
  let p := p.modStation st (fun x => { x with counters := x.counters.invalid cause })
  let p := p.leaveQuiet st
  let p := p.modCollector st Collector.retry
  if spent then p.raise (.retriesExhausted st) (BitVec.ofNat 16 (p.profile.get st).step) 0 else p

/-! ## Air events and the air gate (spec/07, 7.7) -/

/-- The collector's job asks for quiet. -/
def Collector.wantsQuiet (c : Collector) : Bool := (c.job.map Job.quiet).getD false

/-- The notice of an air event to one collector: one that is COLLECTING ends DISTURBED, a quiet window only at a
forced vent (R97, R144). -/
def Part.noticeAt (forced : Bool) (p : Part) (st : Stn) : Part :=
  let c := p.collector.get st
  if c.state = .collecting ∧ (forced ∨ !c.wantsQuiet) then p.attemptEnds st .disturbed else p

/-- An air event begins: every collector is told (R144). -/
def Part.airNotice (p : Part) (forced : Bool) : Part := allStations.foldl (Part.noticeAt forced) p

/-- A sequencer enters VENT: vent count 0, its kind, and the notice (R138, R139, R147). -/
def Part.openVent (p : Part) (st : Stn) (kind : VentKind) : Part :=
  (p.modLeak st (fun x => { x with phase := .vent, ventCount := 0, ventKind := kind })).airNotice (decide (kind = .forced))

/-- A station leaves the deferred list (R143). -/
def Part.undefer (p : Part) (st : Stn) : Part :=
  p.modManifold (fun m => { m with deferred := m.deferred.filter (fun x => x.1 ≠ st) })

/-- A station is entered at the tail of the deferred list, and its deferral count rises (R143). -/
def Part.defer (p : Part) (st : Stn) (what : Held) : Part :=
  (p.modManifold (fun m => { m with deferred := m.deferred ++ [(st, what)] })).countDeferral st

/-- The queue head is granted: FILL begins, with its notice (R127). -/
def Part.grantHead (p : Part) (st : Stn) (rest : List Stn) : Part :=
  let p := (p.modManifold (fun m => { m with queue := rest, holder := some st })).undefer st
  let p := p.modLeak st (fun x => { x with phase := .fill, fillTimer := 0, fillCloses := 0 })
  p.airNotice false

/-- The grant conditions are tested (R127): the head is granted, or entered with GRANT when only quiet holders keep
it (R143), or nothing happens. -/
def Part.grantTest (p : Part) : Part :=
  match p.manifold.queue with
  | [] => p
  | st :: rest =>
    if p.manifold.holder.isSome || p.manifold.purging then p
    else if p.manifold.quiet.isEmpty then p.grantHead st rest
    else if p.manifold.deferred.any (fun x => x.1 = st) then p
    else p.defer st .grant

/-- One entry of a released deferred list: a VENT entry opens its vent as a normal vent (R147). -/
def Part.releaseEntry (p : Part) (x : Stn × Held) : Part :=
  match x.2 with
  | .vent => p.openVent x.1 .normal
  | .grant => p

/-- The gate releases its deferred list when no quiet holder is left (R147). -/
def Part.releaseDeferred (p : Part) : Part :=
  if p.manifold.quiet.isEmpty then
    (p.manifold.deferred.foldl Part.releaseEntry p).modManifold (fun m => { m with deferred := [] })
  else p

/-- What follows at once from a change of the quiet holders, the queue, the grant or the purge: the release
(R147) and the grant test (R127). -/
def Part.gateSettle (p : Part) : Part := p.releaseDeferred.grantTest

/-- The purge begins at a release of the grant; with a purge time of 0 the grant is tested instead (R132). -/
def Part.purgeBegin (p : Part) : Part :=
  if p.cell.purge = 0 then p.grantTest
  else (p.modManifold (fun m => { m with purging := true, purgeCount := 0 })).airNotice false

/-- The grant is released (R127). -/
def Part.releaseGrant (p : Part) : Part := p.modManifold (fun m => { m with holder := none })

/-- A normal vent: VENT at once, or VENT_WAIT on the deferred list while a quiet holder exists (R138). -/
def Part.goToVent (p : Part) (st : Stn) : Part :=
  if p.manifold.quiet.isEmpty then p.openVent st .normal
  else (p.modLeak st (fun x => { x with phase := .ventWait })).defer st .vent

/-! ## A station's work is abandoned (R14, R17, R102, R110, R111, R139) -/

/-- A collector without job and step report (R102; log entry 27). -/
def Collector.idled (c : Collector) (state : CollectorState) : Collector :=
  { c with state := state, job := none, report := .none }

/-- The collector gives up its job (R102); a queued window leaves the analysis queue (R110), one in evaluation is
marked for discard (R111). -/
def Part.giveUpNoise (p : Part) (st : Stn) : Part :=
  match (p.collector.get st).state with
  | .off => p.modCollector st (fun c => c.idled .off)
  | .settling | .armed | .collecting => (p.modCollector st (fun c => c.idled .off)).leaveQuiet st
  | .evaluating =>
    if st ∈ p.engine.queue then
      (p.modEngine (fun g => { g with queue := g.queue.filter (fun x => x ≠ st) })).modCollector st
        (fun c => c.idled .off)
    else
      (p.modEngine (fun g => { g with evaluation := g.evaluation.map (fun e =>
        if e.station = st then { e with discard := true } else e) })).modCollector st
        (fun c => c.idled .evaluating)

/-- The leak sequencer abandons its phase (R139, R140). -/
def Part.abandonLeak (p : Part) (st : Stn) : Part :=
  match (p.leak.get st).phase with
  | .idle | .vent => p
  | .queued =>
    ((p.modManifold (fun m => { m with queue := m.queue.filter (fun x => x ≠ st) })).undefer st).modLeak st
      (fun x => { x with phase := .idle, which := none })
  | .fill =>
    let p := p.modLeak st (fun x => { x with phase := .vent, ventCount := 0, ventKind := .forced })
    p.releaseGrant.purgeBegin.airNotice true
  | .settle | .measure => p.openVent st .forced
  | .ventWait => (p.undefer st).openVent st .forced

/-- The work of collector and leak sequencer is given up at one event. The collector is OFF before the vent's
notice (R103, R144), and what the gate then lets go follows at the same event (log entry 9). -/
def Part.stopBlocks (p : Part) (st : Stn) : Part := ((p.giveUpNoise st).abandonLeak st).gateSettle

/-! ## The report write (spec/09) -/

/-- Finishing of one line (R172). -/
def CheckLine.finish (exhausted : Bool) (l : CheckLine) : CheckLine :=
  if (l.family = .order ∨ l.family = .level) ∧ l.evaluations = 0 then
    { l with reason := if exhausted then .retriesExhausted else .noWindow }
  else l

/-- The final verdict (R174). -/
def finalVerdict (kind : EndKind) (ls : List CheckLine) : Verdict :=
  if kind = .aborted ∨ kind = .halted then .aborted
  else if ls.any (fun l => l.grade = .must && l.outcome = .fail) then .reject
  else if ls.any (fun l => l.grade = .must && l.outcome = .notMeasured) then .incomplete
  else if ls.any (fun l => l.grade = .watch && l.outcome = .fail) then .passNote
  else .pass

/-- A detail block as a record holds it: without its present flag every field is 0 (R175; log entry 18). -/
def Detail.recorded (d : Detail) : Detail := if d.present then d else Detail.reset

/-- The record that a report write forms from a finished station record (R175). -/
def Part.reportOf (p : Part) (st : Stn) (kind : EndKind) : Report :=
  let x := p.station.get st
  let k := p.leak.get st
  { number := p.reports.nextNumber, station := st, serial := x.serial, variantCode := x.variantCode,
    startCycle := x.startCycle, endCycle := p.cycleNow, endKind := kind,
    haltReason := if kind = .halted then x.haltReason else .none, verdict := finalVerdict kind x.lines,
    clamped := x.clamped, counters := x.counters, detailA := k.detailA.recorded, detailB := k.detailB.recorded,
    lines := x.lines }

/-- The check list is finished (R172). -/
def Part.finishLines (p : Part) (st : Stn) : Part :=
  let e := (p.collector.get st).exhausted
  p.modStation st (fun x => { x with lines := x.lines.map (CheckLine.finish e) })

/-- The store takes the record: the reservation becomes a held record with the next number (R178, 1 to 3). -/
def ReportStore.append (r : ReportStore) (x : Report) : ReportStore :=
  { held := r.held ++ [x], reservations := r.reservations - 1, nextNumber := r.nextNumber + 1 }

/-- REPORT_READY, but for a halt, and STORE_HIGH from the tenth held record on (R178, 4 and 5). -/
def Part.reportAlerts (p : Part) (st : Stn) (kind : EndKind) (number : BitVec 16) : Part :=
  let p := if kind = .halted then p else p.raise (.reportReady st) number number
  if 10 ≤ p.reports.held.length then p.raise .storeHigh (BitVec.ofNat 16 p.reports.held.length) 0 else p

/-- The report write (R172, R174, R175, R178). -/
def Part.writeReport (p : Part) (st : Stn) (kind : EndKind) : Part :=
  let p := p.finishLines st
  let x := p.reportOf st kind
  (p.modReports (fun r => r.append x)).reportAlerts st kind x.number

/-- One slot's reference count falls (R154). -/
def Part.dropReference (p : Part) (k : Kind) (r : Option SlotRef) : Part :=
  match r with
  | some ref => p.modTables (fun t =>
      t.setSlot k ref.slot { t.slot k ref.slot with references := (t.slot k ref.slot).references - 1 })
  | none => p

/-- The table references of a station are released (R6). -/
def Part.releaseTables (p : Part) (st : Stn) : Part :=
  let b := (p.station.get st).binding
  ((((p.dropReference .variant b.variant).dropReference .profile b.profile).dropReference .limit b.limit).dropReference
    .leak b.leakA).dropReference .leak b.leakB

/-- The station leaves the active states: report, end cycle, references, tracker STOPPED, state (R10, R15, R17, R44). -/
def Part.endTest (p : Part) (st : Stn) (kind : EndKind) (final : StationState) : Part :=
  let p := (p.writeReport st kind).releaseTables st
  let p := p.modTracker st (fun t => { t with tracking := false })
  let now := p.cycleNow
  p.modStation st (fun x => { x with endCycle := some now, state := final })

/-! ## Stop and halt of a station -/

/-- A station halts (R17, R82); a cause reported for a station that is not active has no effect (R16). -/
def Part.halt (p : Part) (st : Stn) (reason : HaltReason) : Part :=
  if p.activeAt st then
    let p := p.modProfile st (fun e => { e with setpoint := 0, remainder := 0, pendingAbort := false })
    let p := p.stopBlocks st
    let p := p.modStation st (fun x => { x with haltReason := reason })
    let number := p.reports.nextNumber
    (p.endTest st .halted .halted).raise (.halted st) (BitVec.ofNat 16 reason.code) number
  else p

/-- A station enters STOPPING (R14, R81). -/
def Part.enterStopping (p : Part) (st : Stn) : Part :=
  let p := p.modStation st (fun x => { x with state := .stopping })
  let p := p.modProfile st (fun e => { e with pendingAbort := false, remainder := 0, target := 0 })
  p.stopBlocks st

/-- A station enters FINISHING (R9, R81). -/
def Part.enterFinishing (p : Part) (st : Stn) (early : Bool) : Part :=
  let p := p.modStation st (fun x => { x with state := .finishing, earlyStop := early })
  p.modProfile st (fun e => { e with remainder := 0, target := 0 })

/-- The given stations first, in their order, then the others in ascending number. -/
def stationOrder (order : List Stn) : List Stn := order ++ allStations.filter (fun st => st ∉ order)

end Sys2Proof.Machine
end

