-- ==== Sys2Proof/Machine/Tracker.lean ====
section
/-!
DEFINITION. Chapter 3: the angle tracker. Its reading of the encoder counts, the angle history, the index tests, the
speed gate, and its two halt causes.
-/
namespace Sys2Proof.Machine

open Sys2Proof

/-! ## Reading the encoder counts (R45 to R48, R51) -/

/-- Edges since the latest index, taken as signed 16-bit (R48). -/
def sinceIndex (edges latched : BitVec 16) : Int := (edges - latched).toInt

/-- The position of R48. -/
def positionOf (p : Nat) (edges latched : BitVec 16) : Nat := (sinceIndex edges latched % (p : Int)).toNat

/-- The bin of R48. -/
def binOf (p position : Nat) : Nat := position * 256 / p

/-- The direction of an edge change (R46). -/
def directionOf (change : Int) : Direction :=
  if change > 0 then .forward else if change < 0 then .reverse else .none

/-- The index-lost test of a PRESENT close (R51): an index mark clears the flag, a distance beyond P + P / 8 sets it. -/
def indexLostAfter (p : Nat) (was marked : Bool) (e : Int) : Bool :=
  (was && !marked) || decide (p + p / 8 < e.natAbs)

/-- The reading of a PRESENT TACH value (R45 to R48, R51). INDEX is reported for an index change of 2 or more and at
each PRESENT close at which the index-lost flag is set. -/
def Tracker.read (t : Tracker) (edges : BitVec 16) (index : BitVec 8) (latched : BitVec 16) : Tracker :=
  let position := positionOf t.p edges latched
  let e := sinceIndex edges latched
  match t.reference with
  | none =>
    let lost := indexLostAfter t.p t.indexLost false e
    { t with
      reference := some (edges, index), edgesAtIndex := latched, position := position, bin := binOf t.p position
      direction := .none, indexLost := lost, indexReport := lost }
  | some (edges0, index0) =>
    let change := (edges - edges0).toInt
    let marks := (index - index0).toNat
    let lost := indexLostAfter t.p t.indexLost (decide (1 ≤ marks)) e
    { t with
      reference := some (edges, index), edgesAtIndex := latched, position := position, bin := binOf t.p position
      direction := directionOf change, gateSum := t.gateSum + change
      revolution := if 1 ≤ marks then t.revolution + 1 else t.revolution
      indexLost := lost, indexReport := lost || decide (2 ≤ marks) }

/-- The tracker after the cycle's TACH value: a MISSING one is not taken and reports nothing (R45, R51). -/
def Tracker.take (t : Tracker) (value : Option RoleRecord) : Tracker :=
  match value with
  | some { value := .tach edges index latched, mark := .present, .. } => t.read edges index latched
  | _ => { t with indexReport := false }

/-- The TACH value was PRESENT. -/
def tachPresent (value : Option RoleRecord) : Bool :=
  match value with
  | some { value := .tach .., mark := .present, .. } => true
  | _ => false

/-! ## History (R49, R50) -/

/-- The entry of the cycle just closed joins the history, which keeps four (R49). -/
def Tracker.remember (t : Tracker) (cycle : BitVec 32) (present : Bool) : Tracker :=
  let entry : HistoryEntry :=
    if present then { cycle := cycle, revolution := t.revolution, bin := t.bin, direction := t.direction, valid := true }
    else match t.history with
      | last :: _ => { last with cycle := cycle, valid := false }
      | [] => { cycle := cycle, revolution := 0, bin := 0, direction := .none, valid := false }
  { t with history := (entry :: t.history).take 4 }

/-- The entry for a cycle, the newest if two carry its number (R50; log entry 19). -/
def Tracker.entryFor (t : Tracker) (cycle : BitVec 32) : Option HistoryEntry :=
  t.history.find? (fun e => e.cycle = cycle)

/-! ## Index timer, speed gate and the halt causes (R52 to R55) -/

/-- 60 rpm in units of the setpoint. -/
def sixtyRpm : Nat := 61440

/-- The index timer at a close (R52), the setpoint being the one in force for the cycle closed (R61). -/
def Tracker.countIndex (t : Tracker) (inForce : Int) : Tracker :=
  { t with indexTimer :=
      if !t.indexLost then 0
      else if sixtyRpm ≤ inForce.natAbs then satSucc 40000 t.indexTimer
      else t.indexTimer }

/-- The index timer has reached 40,000. -/
def Tracker.indexExpired (t : Tracker) : Bool := t.tracking && decide (40000 ≤ t.indexTimer)

/-- The gate count rises (R53). -/
def Tracker.countGate (t : Tracker) : Tracker := { t with gateCount := t.gateCount + 1 }

/-- The gate count of a tracker has reached 200. -/
def Tracker.gateFull (t : Tracker) : Bool := t.tracking && decide (200 ≤ t.gateCount)

/-- The measured speed of a gate sum (R53). -/
def gateSpeed (p : Nat) (sum : Int) : Int := clampTo 30000 ((sum * 6000).tdiv (p : Int))

/-- The complete gate: measured speed, stillness count, and a fresh gate (R53, R54). -/
def Tracker.closeGate (t : Tracker) (inForce : Int) : Tracker :=
  { t with
    speed := some (gateSpeed t.p t.gateSum)
    stillGates := if t.gateSum = 0 ∧ sixtyRpm ≤ inForce.natAbs then satSucc 100 t.stillGates else 0
    gateCount := 0, gateSum := 0 }

/-- The coming close completes the gate (R53). -/
def Tracker.gateEnds (t : Tracker) : Bool := decide (200 ≤ t.gateCount + 1)

/-- The gate at a close: the count rises, and the gate that it completes is closed (R53, R54). -/
def Tracker.passGate (t : Tracker) (inForce : Int) : Tracker :=
  if t.gateEnds then t.countGate.closeGate inForce else t.countGate

/-- The still-gates count has reached 100. -/
def Tracker.stillExpired (t : Tracker) : Bool := t.tracking && decide (100 ≤ t.stillGates)

/-- The overspeed limit of R55. -/
def Cell.overspeedLimit (c : Cell) : Nat := c.ceiling + c.ceiling / 8

/-- The measured speed exceeds the overspeed limit (R55). -/
def Tracker.overspeed (t : Tracker) (limit : Nat) : Bool :=
  match t.speed with
  | some v => decide (limit < v.natAbs)
  | none => false

/-- INDEX_TIMER_EXPIRY: the timer has reached 40,000 and the station halts with ENCODER_LOSS (R52). -/
def Part.indexTimerExpiry (p : Part) (st : Stn) : Part :=
  if (p.tracker.get st).indexExpired then p.halt st .encoderLoss else p

/-- STILL_GATES_EXPIRY: the count has reached 100 and the station halts with ENCODER_LOSS (R54). -/
def Part.stillGatesExpiry (p : Part) (st : Stn) : Part :=
  if (p.tracker.get st).stillExpired then p.halt st .encoderLoss else p

/-- The overspeed test at the close that completes a gate: a measured speed above the limit halts the station with
OVERSPEED (R55). -/
def Part.overspeedTest (p : Part) (st : Stn) : Part :=
  if (p.tracker.get st).overspeed p.cell.overspeedLimit then p.halt st .overspeed else p

/-- SPEED_GATE_COMPLETE: the measured speed is formed (R53), stillness is counted (R54), and a speed above the limit
halts the station with OVERSPEED (R55). -/
def Part.speedGateComplete (p : Part) (st : Stn) : Part :=
  if (p.tracker.get st).gateFull then
    (p.modTracker st (fun t => t.closeGate (p.profile.get st).inForce)).overspeedTest st
  else p

/-- START: the tracker enters TRACKING afresh (R44). -/
def Tracker.start (pEdges : Nat) : Tracker := { Tracker.reset with tracking := true, p := pEdges }

/-- The reading, the history entry, the index timer and the gate of a close (R45 to R54). -/
def Tracker.close (t : Tracker) (tach : Option RoleRecord) (now : BitVec 32) (inForce : Int) : Tracker :=
  (((t.take tach).remember now (tachPresent tach)).countIndex inForce).passGate inForce

/-- What the tracker reports at a close (R52, R54, R55), `gate` when the close completed a gate: the first report halts
the station, and the others find it HALTED (R16, R54; log entry 3). -/
def Part.trackerReports (p : Part) (st : Stn) (gate : Bool) : Part :=
  let p := p.indexTimerExpiry st
  (if gate then p.overspeedTest st else p).stillGatesExpiry st

/-- The tracker's work at a close (R45 to R55): all its counts are formed, then its reports are made. -/
def Part.trackerWork (p : Part) (st : Stn) : Part :=
  if (p.tracker.get st).tracking then
    let gate := (p.tracker.get st).gateEnds
    (p.modTracker st (fun t => t.close (p.roleAt st .tach) p.cycleNow (p.profile.get st).inForce)).trackerReports st gate
  else p

end Sys2Proof.Machine
end

