-- ==== Sys2Proof/Machine/Noise.lean ====
section
/-!
DEFINITION. Chapter 5: the noise collector. Jobs, the start of a window, placement of samples by angle, revolutions,
the completed window and its tests.
-/
namespace Sys2Proof.Machine

open Sys2Proof

/-! ## Settings of a window -/

/-- The binned channels of a station: the vibration roles of its required set (spec/05, 5.1). -/
def Part.binned (p : Part) (st : Stn) : List Stn :=
  allStations.filter (fun ch => vibRole ch ∈ (p.station.get st).required)

/-- The depth: 2 to the power of the window depth code. -/
def Variant.depth (v : Variant) : Nat := 2 ^ v.depthCode

/-- The window time limit in ring cycles. -/
def Variant.timeLimitCycles (v : Variant) : Nat := 20 * v.timeLimit

/-! ## Taking a job (R85) -/

/-- The collector takes a job and enters SETTLING. -/
def Collector.takeJob (c : Collector) (j : Job) : Collector :=
  { c with job := some j, evaluated := 0, settleCount := 0, report := .none, state := .settling }

/-- The retry budget of a NOISE or LADDER step (R85). -/
def Collector.setBudget (c : Collector) (budget : Nat) : Collector := { c with budget := budget }

/-! ## Clearing a window's working fields (R89) -/

/-- Bins with every sum, count and average accumulator 0. -/
def Bins.clear (b : Bins) : Bins :=
  { b with sums := List.replicate 256 0, counts := List.replicate 256 0, averages := List.replicate 256 0 }

/-- Update the bins of some channels. -/
def updateChannels (f : Bins → Bins) (channels : List Stn) (b : Four Bins) : Four Bins :=
  channels.foldl (fun acc ch => acc.set ch (f (acc.get ch))) b

/-- The window's working fields are cleared (R86, R89). -/
def Collector.clearWindow (c : Collector) (binned : List Stn) : Collector :=
  { c with
    direction := .none, firstBoundary := none, latestBoundary := none, revolutionsDone := 0, lengths := []
    channels := updateChannels Bins.clear binned c.channels, placed := 0, defects := 0 }

/-- The collector enters COLLECTING (R89). -/
def Collector.begin (c : Collector) (binned : List Stn) (revolution : BitVec 32) : Collector :=
  { c.clearWindow binned with state := .collecting, leadIn := true, openRevolution := revolution }

/-! ## Settling and starting (R86 to R88) -/

/-- The settle count is not below the job's settle cycles. -/
def Collector.settled (c : Collector) : Bool :=
  decide (c.state = .settling) && decide ((c.job.map Job.settle).getD 0 ≤ c.settleCount)

/-- COLLECTOR_SETTLE_END: the collector enters ARMED and opens an attempt (R86). -/
def Part.collectorSettleEnd (p : Part) (st : Stn) : Part :=
  if (p.collector.get st).settled then
    p.modCollector st (fun c => { c.clearWindow (p.binned st) with state := .armed, windowTimer := 0 })
  else p

/-- The gate is steady (R87, 2). -/
def steady (tolerance : Nat) (speed : Option Int) (inForce : Int) : Bool :=
  match speed with
  | some m => decide ((m - inForce.tdiv 1024).natAbs * 100 ≤ tolerance * (inForce.tdiv 1024).natAbs)
  | none => false

/-- The first four start conditions (R87). -/
def Part.startConditions (p : Part) (st : Stn) : Bool :=
  let inForce := (p.profile.get st).inForce
  let t := p.tracker.get st
  decide (sixtyRpm ≤ inForce.natAbs) && steady (p.variantAt st).tolerance t.speed inForce
    && !p.airEvent && !t.indexReport

/-- The air gate admits a quiet window: no air event, and an empty deferred list (R145). -/
def Part.admits (p : Part) : Bool := !p.airEvent && p.manifold.deferred.isEmpty

/-- WINDOW_START: an ARMED collector whose start conditions hold enters COLLECTING, a quiet window after its station
has become a quiet holder (R87 to R89). -/
def Part.windowStart (p : Part) (st : Stn) : Part :=
  let c := p.collector.get st
  if c.state = .armed ∧ p.startConditions st ∧ (c.wantsQuiet → p.admits) then
    let t := p.tracker.get st
    let revolution := ((t.entryFor p.cycleNow).map HistoryEntry.revolution).getD t.revolution
    let p := if c.wantsQuiet then p.modManifold (fun m => { m with quiet := m.quiet ++ [st] }) else p
    p.modCollector st (fun c => c.begin (p.binned st) revolution)
  else p

/-! ## Placing samples by angle (R90 to R93) -/

/-- The classes of a sample (R90). -/
inductive Class where
  | excluded | unplaceable | late | current | newer
  deriving DecidableEq, Repr

/-- The class of a sample by its angle entry and the open revolution (R90). -/
def classOf (v : Variant) (open_ : BitVec 32) (entry : Option HistoryEntry) : Class :=
  match entry with
  | none => .unplaceable
  | some e =>
    if !e.valid then .unplaceable
    else if v.excludes e.bin then .excluded
    else if e.revolution = open_ then .current
    else if (e.revolution - open_).toNat ≤ 2 ^ 31 then .newer
    else .late

/-- A sample of a close: its channel, value, whether its mark is a defect, and its angle entry (R90, R91). -/
structure Placement where
  channel : Stn
  value : Int
  spoiled : Bool
  entry : Option HistoryEntry
  deriving DecidableEq, Repr

/-- The samples of a station's binned channels at a close, each with the entry for cycle n - skew (R91). -/
def Part.placements (p : Part) (st : Stn) : List Placement :=
  (p.binned st).filterMap (fun ch =>
    (p.roleAt st (vibRole ch)).map (fun r =>
      { channel := ch, value := r.value.vibValue, spoiled := decide (r.mark ≠ .present),
        entry := (p.tracker.get st).entryFor (p.cycleNow - BitVec.ofNat 32 r.skew) }))

/-- Add one sample to a bin. -/
def Bins.add (b : Bins) (bin : Nat) (value : Int) : Bins :=
  { b with sums := b.sums.set bin (b.sums.getD bin 0 + value), counts := b.counts.set bin (b.counts.getD bin 0 + 1) }

/-- A current sample is placed (R92). -/
def Collector.place (c : Collector) (x : Placement) : Collector :=
  let bin := (x.entry.map HistoryEntry.bin).getD 0
  { c with
    channels := c.channels.set x.channel ((c.channels.get x.channel).add bin x.value)
    placed := c.placed + 1
    defects := if x.spoiled then c.defects + 1 else c.defects }

/-- The samples that are not newer (R90): current ones are placed, unplaceable ones are defects, the others are
dropped. In the lead-in nothing is counted (R90, R92; log entry 11). -/
def Collector.placeOpen (v : Variant) (c : Collector) (x : Placement) : Collector :=
  if c.leadIn then c
  else match classOf v c.openRevolution x.entry with
    | .current => c.place x
    | .unplaceable => { c with defects := c.defects + 1 }
    | _ => c

/-! ## Closing a revolution (R94) -/

/-- The filled bins of a revolution, from bin `b` on. -/
def filledBins (v : Variant) : List Int → List Nat → Nat → List (Option Int)
  | s :: ss, n :: ns, b =>
    (if 0 < n ∧ !v.excludes b then some (s.tdiv (n : Int)) else none) :: filledBins v ss ns (b + 1)
  | _, _, _ => []

/-- The value of the highest filled bin. -/
def lastFilled (xs : List (Option Int)) : Option Int :=
  xs.foldl (fun acc x => match x with
    | some v => some v
    | none => acc) none

/-- Every bin that is not filled takes the value of the nearest filled bin below it; `carry` is what bin 0 finds by
wrapping to bin 255. -/
def fillDown (carry : Int) : List (Option Int) → List Int
  | [] => []
  | some v :: rest => v :: fillDown v rest
  | none :: rest => carry :: fillDown carry rest

/-- The bin values of a revolution (R94, 1 to 3). -/
def Bins.values (v : Variant) (b : Bins) : List Int :=
  let xs := filledBins v b.sums b.counts 0
  fillDown ((lastFilled xs).getD 0) xs

/-- One channel at the close of a revolution: its values join the accumulators, sums and counts are cleared. -/
def Bins.closeRevolution (v : Variant) (b : Bins) : Bins :=
  { b with
    averages := List.zipWith (fun x y => x + y) b.averages (b.values v)
    sums := List.replicate 256 0, counts := List.replicate 256 0 }

/-- The open revolution is closed at a boundary (R94). -/
def Collector.closeRevolution (c : Collector) (v : Variant) (binned : List Stn) (cycle : BitVec 32) : Collector :=
  { c with
    channels := updateChannels (Bins.closeRevolution v) binned c.channels
    lengths := c.lengths ++ [(cycle - c.latestBoundary.getD cycle).toNat]
    revolutionsDone := c.revolutionsDone + 1
    latestBoundary := some cycle }

/-- The window is complete (R95). -/
def Collector.complete (c : Collector) (v : Variant) : Bool :=
  decide (c.state = .collecting) && decide (v.depth ≤ c.revolutionsDone)

/-- A boundary (R93): the lead-in ends, or the open revolution is closed; the newer samples are placed unless the
window is complete. `revolution` is the newer revolution number. -/
def Collector.boundary (c : Collector) (v : Variant) (binned : List Stn) (cycle revolution : BitVec 32)
    (newer : List Placement) : Collector :=
  let c := if c.leadIn then { c with leadIn := false, firstBoundary := some cycle, latestBoundary := some cycle }
    else c.closeRevolution v binned cycle
  let c := { c with openRevolution := revolution }
  if c.complete v then c else newer.foldl Collector.place c

/-- The revolution numbers that newer samples of the close name. A station without binned channels consults the
entry for the cycle closed as a channel of skew 0 would (R93; log entry 13). -/
def newerRevolutions (v : Variant) (open_ : BitVec 32) (newer : List Placement) (binned : List Stn)
    (now : Option HistoryEntry) : List (BitVec 32) :=
  if binned.isEmpty then
    if classOf v open_ now = .newer then (now.map HistoryEntry.revolution).toList else []
  else newer.filterMap (fun x => x.entry.map HistoryEntry.revolution)

/-- The placement of one close (R90 to R94): first every current sample, then the boundary if a sample is newer. Where
newer samples name different revolutions, the lowest-numbered channel's is taken (log entry 12). -/
def Collector.placement (c : Collector) (v : Variant) (binned : List Stn) (cycle : BitVec 32) (xs : List Placement)
    (now : Option HistoryEntry) : Collector :=
  let newer := xs.filter (fun x => classOf v c.openRevolution x.entry = .newer)
  let revolutions := newerRevolutions v c.openRevolution newer binned now
  let c := xs.foldl (Collector.placeOpen v) c
  match revolutions with
  | r :: _ => c.boundary v binned cycle r newer
  | [] => c

/-! ## The completed window (R95) and the tests of R96 -/

/-- The total: the cycle number of the last boundary minus that of the first, mod 2^32. -/
def Collector.total (c : Collector) : Nat :=
  match c.firstBoundary, c.latestBoundary with
  | some a, some b => (b - a).toNat
  | _, _ => 0

/-- The magnitude of the window speed; a total of 0 gives no quotient (log entry 10). -/
def windowSpeedOf (depth total : Nat) : Nat :=
  if total = 0 then Config.speedOfZeroTotal depth else depth * 1200000 / total

/-- The window's results are formed (R95). -/
def Collector.formResults (c : Collector) (v : Variant) (binned : List Stn) : Collector :=
  let speed := windowSpeedOf v.depth c.total
  { c with
    channels := updateChannels (fun b => { b with waveform := b.averages.map (fun a => a / (v.depth : Int)) }) binned
      c.channels
    windowSpeed := if c.direction = .reverse then -(speed : Int) else (speed : Int) }

/-- UNSTEADY: some revolution's length strays from the mean by more than the tolerance (R96, 3). -/
def Collector.unsteady (c : Collector) (v : Variant) : Bool :=
  c.lengths.any (fun l => decide (v.tolerance * c.total < ((l : Int) * (v.depth : Int) - (c.total : Int)).natAbs * 100))

/-- DEFECT: the defect count exceeds one sixty-fourth of the placed count (R96, 3). -/
def Collector.spoiled (c : Collector) : Bool := decide (c.placed / 64 < c.defects)

/-- The direction test (R96, 2): the direction after it, or none when the window turned the other way. -/
def directionTest (was : Direction) (now : Option HistoryEntry) : Option Direction :=
  match now with
  | some e =>
    if !e.valid ∨ e.direction = .none then some was
    else if was = .none ∨ was = e.direction then some e.direction
    else none
  | none => some was

/-- A valid window: counted, numbered, out of the quiet holders, and on the analysis queue (R99). -/
def Part.windowValid (p : Part) (st : Stn) : Part :=
  let p := p.modStation st (fun x => { x with counters := { x.counters with valid := bump x.counters.valid } })
  let n := (p.station.get st).counters.valid
  let p := (p.modCollector st (fun c => { c with windowNumber := n, state := .evaluating })).leaveQuiet st
  (p.analysisJoin st).gateSettle

/-- An attempt ends invalid, and what the air gate then lets go follows (R98, R147). -/
def Part.windowInvalid (p : Part) (st : Stn) (cause : Cause) : Part := (p.attemptEnds st cause).gateSettle

/-- The INDEX and DIRECTION tests of a close (R96, 1 and 2); `after` is what follows when both pass. -/
def Part.angleTests (p : Part) (st : Stn) (after : Part → Part) : Part :=
  let t := p.tracker.get st
  if t.indexReport then p.windowInvalid st .index
  else match directionTest (p.collector.get st).direction (t.entryFor p.cycleNow) with
    | none => p.windowInvalid st .direction
    | some d => after (p.modCollector st (fun c => { c with direction := d }))

/-- The completion tests (R96, 3). -/
def Part.completionTests (st : Stn) (p : Part) : Part :=
  let c := p.collector.get st
  if c.unsteady (p.variantAt st) then p.windowInvalid st .unsteady
  else if c.spoiled then p.windowInvalid st .defect
  else p.windowValid st

/-- WINDOW_COMPLETE: the results are formed and tested (R95, R96). -/
def Part.windowComplete (p : Part) (st : Stn) : Part :=
  let v := p.variantAt st
  if (p.collector.get st).complete v then
    (p.modCollector st (fun c => c.formResults v (p.binned st))).angleTests st (Part.completionTests st)
  else p

/-- The window timer of an attempt that is not complete has reached the window time limit (R96). -/
def Collector.overdue (c : Collector) (v : Variant) : Bool :=
  (decide (c.state = .armed) || decide (c.state = .collecting ∧ c.revolutionsDone < v.depth))
    && decide (v.timeLimitCycles ≤ c.windowTimer)

/-- WINDOW_OVERTIME: the attempt ends with OVERTIME (R96). -/
def Part.windowOvertime (p : Part) (st : Stn) : Part :=
  if (p.collector.get st).overdue (p.variantAt st) then p.windowInvalid st .overtime else p

/-! ## The collector's work at a close -/

/-- The samples of the close are placed (R90). -/
def Part.placeSamples (p : Part) (st : Stn) : Part :=
  let xs := p.placements st
  let now := (p.tracker.get st).entryFor p.cycleNow
  p.modCollector st (fun c => c.placement (p.variantAt st) (p.binned st) p.cycleNow xs now)

/-- The window timer rises (R87, R96). -/
def Part.countWindow (p : Part) (st : Stn) : Part :=
  p.modCollector st (fun c => { c with windowTimer := c.windowTimer + 1 })

/-- The close of a COLLECTING collector (R96). -/
def Part.collect (p : Part) (st : Stn) : Part :=
  let p := (p.countWindow st).placeSamples st
  if (p.collector.get st).complete (p.variantAt st) then p.windowComplete st
  else p.angleTests st (fun p => p.windowOvertime st)

/-- The close of an ARMED collector (R87, R96): the start conditions, and OVERTIME when they fail at the limit. -/
def Part.awaitStart (p : Part) (st : Stn) : Part :=
  let p := (p.countWindow st).windowStart st
  if (p.collector.get st).state = .armed then p.windowOvertime st else p

/-- The collector's work at a close. `pre` is the part before the blocks' works of the close: a job handed over at this
close is taken up at the next one (R60). -/
def Part.collectorWork (pre p : Part) (st : Stn) : Part :=
  if (pre.collector.get st).state = .off then p
  else match (p.collector.get st).state with
    | .settling => (p.modCollector st (fun c => { c with settleCount := c.settleCount + 1 })).collectorSettleEnd st
    | .armed => p.awaitStart st
    | .collecting => p.collect st
    | .off | .evaluating => p

end Sys2Proof.Machine
end

