-- ==== Sys2Proof/Machine/Leak.lean ====
section
/-!
DEFINITION. Chapter 7: the leak sequencer's phases, the measurement and its decision, and the purge.
-/
namespace Sys2Proof.Machine

open Sys2Proof

/-! ## Starting a sequence (R124) -/

/-- A leak record with its durations in ring cycles (R124). -/
def LeakRecord.inCycles (r : LeakRecord) : LeakRecord :=
  { r with fillTimeout := 20 * r.fillTimeout, settle := 20 * r.settle, measure := 20 * r.measure, vent := 20 * r.vent }

/-- The leak record that a station's binding names for leak A or B. -/
def Part.leakRecord (p : Part) (st : Stn) (w : Which) : LeakRecord :=
  let b := (p.station.get st).binding
  leakOf (p.boundTable .leak (match w with
    | .a => b.leakA
    | .b => b.leakB))

/-- The sequencer takes a leak and enters QUEUED (R124). -/
def Sequencer.begin (x : Sequencer) (w : Which) (r : LeakRecord) : Sequencer :=
  { x with
    phase := .queued, which := some w, copy := r.inCycles, waitCount := 0, fillTimer := 0, fillCloses := 0
    settleCount := 0, measureCount := 0, headPress := 0, headTemp := 0, tailPress := 0, tailTemp := 0
    defects := 0, ventCount := 0, ventKind := .normal }

/-- A leak sequence begins: QUEUED, at the tail of the manifold queue, and the grant test (R124, R126). -/
def Part.leakBegin (p : Part) (st : Stn) (w : Which) : Part :=
  let r := p.leakRecord st w
  ((p.modLeak st (fun x => x.begin w r)).modManifold (fun m => { m with queue := m.queue ++ [st] })).gateSettle

/-! ## Leak lines and detail blocks -/

/-- Update the detail block of the leak in progress. -/
def Sequencer.modDetail (x : Sequencer) (f : Detail → Detail) : Sequencer :=
  match x.which with
  | some .a => { x with detailA := f x.detailA }
  | some .b => { x with detailB := f x.detailB }
  | none => x

/-- The fill time is written into the detail block: fill closes / 20 in ms (R130). -/
def Sequencer.noteFillTime (x : Sequencer) : Sequencer := x.modDetail (fun d => { d with fillTime := x.fillCloses / 20 })

/-- A line of the leak family takes an evaluation's value: it becomes the worst value when it is the first one or
greater (R131, R137). -/
def CheckLine.takeRate (l : CheckLine) (v : Int) : CheckLine :=
  if l.evaluations = 0 ∨ l.worst < v then { l with worst := v } else l

/-- The gross leak of a fill timeout (R131). -/
def grossLine (rateLimit : Nat) (l : CheckLine) : CheckLine :=
  { (l.takeRate 1000000).count with outcome := .fail, reason := .gross, limit := (rateLimit : Int) }

/-- The decision of a measured rate (R137). -/
def rateLine (rateLimit riseLimit : Nat) (rate : Int) (l : CheckLine) : CheckLine :=
  let l' := { (l.takeRate rate).count with limit := (rateLimit : Int) }
  if (rateLimit : Int) < rate then { l' with outcome := .fail, reason := .none }
  else if rate < -(riseLimit : Int) then l'.settle .notMeasured .rise
  else l'.settle .pass .none

/-! ## Leaving QUEUED: MANIFOLD_TIMEOUT (R125) -/

/-- The wait count has reached the manifold wait limit. -/
def Part.waitedOut (p : Part) (st : Stn) : Bool :=
  let x := p.leak.get st
  decide (x.phase = .queued) && decide (20 * p.cell.waitLimit ≤ x.waitCount)

/-- MANIFOLD_TIMEOUT (R125). -/
def Part.manifoldTimeout (p : Part) (st : Stn) : Part :=
  if p.waitedOut st then
    let id := (p.leak.get st).copy.checkId
    let p := p.modLine st id (fun l => l.settle .notMeasured .manifoldTimeout)
    let p := (p.modManifold (fun m => { m with queue := m.queue.filter (fun x => x ≠ st) })).undefer st
    let p := p.modLeak st (fun x => { x with phase := .idle, which := none })
    (p.raise (.manifoldTimeout st) (BitVec.ofNat 16 id) 0).gateSettle
  else p

/-! ## FILL (R128 to R131) -/

/-- A close in FILL (R128): the fill closes rise, and the fill timer unless the VALVE role shows supply low. -/
def Sequencer.countFill (x : Sequencer) (supplyLow : Bool) : Sequencer :=
  { x with fillCloses := x.fillCloses + 1, fillTimer := if supplyLow then x.fillTimer else x.fillTimer + 1 }

/-- The VALVE role shows supply low, present or held; before any delivery it holds 0 (R128). -/
def Part.supplyLow (p : Part) : Bool :=
  ((p.roleRecord none .valve).map (fun r => r.value.supplyLow)).getD false

/-- The grant of a station that has left FILL is released and the purge begins (R127, R132). -/
def Part.endFill (p : Part) : Part := p.releaseGrant.noteClosed.purgeBegin

/-- The target pressure is reached: SETTLE (R129, R130). -/
def Part.fillReached (p : Part) (st : Stn) (pressure : Nat) : Part :=
  let x := p.leak.get st
  if x.phase = .fill ∧ x.copy.target ≤ pressure then
    (p.modLeak st (fun x => { x.noteFillTime with phase := .settle, settleCount := 0 })).endFill.gateSettle
  else p

/-- The fill timer has reached the fill timeout. -/
def Sequencer.fillOverdue (x : Sequencer) : Bool := decide (x.phase = .fill) && decide (x.copy.fillTimeout ≤ x.fillTimer)

/-- FILL_TIMEOUT: a gross leak (R131). The phase leaves FILL before the purge begins, and the vent's notice follows. -/
def Part.fillTimeout (p : Part) (st : Stn) : Part :=
  let x := p.leak.get st
  if x.fillOverdue then
    let p := p.modLine st x.copy.checkId (grossLine x.copy.rateLimit)
    let p := p.modLeak st (fun x =>
      x.modDetail (fun _ => { Detail.reset with present := true, fillTime := x.fillCloses / 20 }))
    let quiet := p.manifold.quiet.isEmpty
    let p := p.modLeak st (fun x => { x with phase := if quiet then .vent else .ventWait, ventCount := 0, ventKind := .normal })
    let p := p.endFill
    (if quiet then p.airNotice false else p.defer st .vent).gateSettle
  else p

/-! ## SETTLE and MEASURE (R133 to R137) -/

/-- The settle count is not below the settle time. -/
def Sequencer.settled (x : Sequencer) : Bool := decide (x.phase = .settle) && decide (x.copy.settle ≤ x.settleCount)

/-- LEAK_SETTLE_END (R133). -/
def Part.leakSettleEnd (p : Part) (st : Stn) : Part :=
  if (p.leak.get st).settled then p.modLeak st (fun x => { x with phase := .measure, measureCount := 0 }) else p

/-- One sample of MEASURE (R134): the sums, the defects, the count. -/
def Sequencer.takeSample (x : Sequencer) (press temp : Nat) (pressMissing tempMissing : Bool) : Sequencer :=
  let i := x.measureCount
  let head := i < 256
  let tail := x.copy.measure ≤ i + 256 ∧ i < x.copy.measure
  { x with
    headPress := if head then x.headPress + press else x.headPress
    headTemp := if head then x.headTemp + temp else x.headTemp
    tailPress := if tail then x.tailPress + press else x.tailPress
    tailTemp := if tail then x.tailTemp + temp else x.tailTemp
    defects := x.defects + (if pressMissing then 1 else 0) + (if tempMissing then 1 else 0)
    measureCount := i + 1 }

/-- The measurement has taken its M closes. -/
def Sequencer.measured (x : Sequencer) : Bool := decide (x.phase = .measure) && decide (x.copy.measure ≤ x.measureCount)

/-- The decay D of R136 from the four means. -/
def decayOf (compensate : Bool) (p0 p1 t0 t1 : Nat) : Int :=
  if compensate then ((p0 * t1 / t0 : Nat) : Int) - (p1 : Int) else (p0 : Int) - (p1 : Int)

/-- The rate of R136. -/
def rateOf (decay : Int) (m : Nat) : Int := clampTo 1000000 ((decay * 1200000).tdiv ((m : Int) - 256))

/-- The results of a measurement (R135). -/
inductive MeasureResult where
  | signal | tempInvalid | rated (decay rate : Int)
  deriving DecidableEq, Repr

/-- A temperature that can be trusted: 200.00 K to 400.00 K (R135). -/
def tempTrusted (t : Nat) : Bool := decide (20000 ≤ t ∧ t ≤ 40000)

/-- The tests of R135 in their order. -/
def Sequencer.result (x : Sequencer) : MeasureResult :=
  let m := x.copy.measure
  let t0 := x.headTemp / 256
  let t1 := x.tailTemp / 256
  if m / 64 < x.defects then .signal
  else if x.copy.compensate ∧ !(tempTrusted t0 && tempTrusted t1) then .tempInvalid
  else
    let d := decayOf x.copy.compensate (x.headPress / 256) (x.tailPress / 256) t0 t1
    .rated d (rateOf d m)

/-- What a result does to the leak line (R135, R137). -/
def MeasureResult.line (r : MeasureResult) (copy : LeakRecord) (l : CheckLine) : CheckLine :=
  match r with
  | .signal => l.settle .notMeasured .signal
  | .tempInvalid => l.settle .notMeasured .tempInvalid
  | .rated _ rate => rateLine copy.rateLimit copy.riseLimit rate l

/-- The detail block after a measurement: D and the rate are 0 when none was formed (R135, R137). -/
def Sequencer.measuredDetail (x : Sequencer) (r : MeasureResult) (d : Detail) : Detail :=
  let dr : Int × Int := match r with
    | .rated decay rate => (decay, rate)
    | _ => (0, 0)
  { d with
    present := true, p0 := x.headPress / 256, p1 := x.tailPress / 256, t0 := x.headTemp / 256
    t1 := x.tailTemp / 256, decay := dr.1, rate := dr.2 }

/-- MEASURE_COMPLETE: the result is decided, line and detail block are written, and the housing goes to vent
(R135, R137, R138). -/
def Part.measureComplete (p : Part) (st : Stn) : Part :=
  let x := p.leak.get st
  if x.measured then
    let r := x.result
    let p := p.modLine st x.copy.checkId (r.line x.copy)
    let p := p.modLeak st (fun x => x.modDetail (x.measuredDetail r))
    (p.goToVent st).gateSettle
  else p

/-! ## VENT (R138) -/

/-- The vent count has reached the vent time. -/
def Sequencer.vented (x : Sequencer) : Bool := decide (x.phase = .vent) && decide (x.copy.vent ≤ x.ventCount)

/-- VENT_END: the vent valve closes and the sequencer is IDLE (R138). -/
def Part.ventEnd (p : Part) (st : Stn) : Part :=
  if (p.leak.get st).vented then (p.modLeak st (fun x => { x with phase := .idle, which := none })).noteClosed else p

/-! ## The purge (R132) -/

/-- The purge count has reached the purge time now in force (R165). -/
def Part.purgeDone (p : Part) : Bool := p.manifold.purging && decide (20 * p.cell.purge ≤ p.manifold.purgeCount)

/-- PURGE_END: the purge valve closes and the grant conditions are tested (R132). -/
def Part.purgeEnd (p : Part) : Part :=
  if p.purgeDone then (p.modManifold (fun m => { m with purging := false })).noteClosed.gateSettle else p

/-- The purge's work at a close (R132). -/
def Part.purgeWork (p : Part) : Part :=
  if p.manifold.purging then (p.modManifold (fun m => { m with purgeCount := m.purgeCount + 1 })).purgeEnd else p

/-! ## The sequencer's work at a close -/

/-- The sample of a station's role: its held value and whether it is MISSING (R134, R38). -/
def Part.leakSample (p : Part) (st : Stn) (r : Role) (value : Sample → Nat) : Nat × Bool :=
  match p.roleAt st r with
  | some x => (value x.value, decide (x.mark = .missing))
  | none => (0, true)

/-- A close in MEASURE (R134). -/
def Part.measureWork (p : Part) (st : Stn) : Part :=
  let press := p.leakSample st .press Sample.pressure
  let temp := p.leakSample st .temp Sample.temperature
  (p.modLeak st (fun x => x.takeSample press.1 temp.1 press.2 temp.2)).measureComplete st

/-- The sequencer's work at a close. `pre` is the part before the blocks' works of the close: a sequence started at
this close is taken up at the next one (R60). -/
def Part.leakWork (pre p : Part) (st : Stn) : Part :=
  if (pre.leak.get st).phase = .idle then p
  else match (p.leak.get st).phase with
    | .queued => (p.modLeak st (fun x => { x with waitCount := x.waitCount + 1 })).manifoldTimeout st
    | .fill => (p.modLeak st (fun x => x.countFill p.supplyLow)).fillTimeout st
    | .settle => (p.modLeak st (fun x => { x with settleCount := x.settleCount + 1 })).leakSettleEnd st
    | .measure => p.measureWork st
    | .vent => (p.modLeak st (fun x => { x with ventCount := x.ventCount + 1 })).ventEnd st
    | .idle | .ventWait => p

end Sys2Proof.Machine
end

