-- ==== Sys2Proof/Machine/Profile.lean ====
section
/-!
DEFINITION. Chapter 4: the profile executor. The setpoint ramp, the reversal dwell, the eleven step kinds, and the
torque check.
-/
namespace Sys2Proof.Machine

open Sys2Proof

/-! ## Setpoint arithmetic (R62 to R64) -/

/-- The effective target of a speed in rpm (R62). -/
def effectiveTarget (ceiling : Nat) (rpm : Int) : Int := clampTo ceiling rpm * 1024

/-- A ramp is given a target; a clamped one raises CLAMPED and sets the clamp flag (R62). -/
def Part.giveTarget (p : Part) (st : Stn) (rpm : Int) : Part :=
  let c := p.cell.ceiling
  let p := p.modProfile st (fun e => { e with target := effectiveTarget c rpm })
  if clampTo c rpm = rpm then p
  else (p.modStation st (fun x => { x with clamped := true })).raise (.clamped st)
    (BitVec.ofNat 16 (p.profile.get st).step) 0

/-- The ramp stands in its reversal dwell: setpoint 0, and a target of the other sign from the last sign (R64). -/
def Executor.reversing (e : Executor) : Bool :=
  decide (e.setpoint = 0) && decide (e.target ≠ 0) && decide (e.lastSign ≠ .none) && decide (signOf e.target ≠ e.lastSign)

/-- The aim of a ramp's move, or none while the reversal dwell holds it at zero (R64). -/
def Executor.aim (e : Executor) (dwell : Nat) : Option Int :=
  if e.setpoint ≠ 0 then
    if e.target = 0 ∨ signOf e.target = signOf e.setpoint then some e.target else some 0
  else if e.reversing then
    if dwell ≤ e.zeroRun then some e.target else none
  else some e.target

/-- One move toward an aim (R63), the rate in rpm/s. -/
def Executor.move (e : Executor) (rate : Nat) (aim : Int) : Executor :=
  let sum := e.remainder + rate * 1024
  let step := sum / 20000
  if (aim - e.setpoint).natAbs ≤ step then { e with setpoint := aim, remainder := 0 }
  else { e with
    setpoint := if e.setpoint < aim then e.setpoint + (step : Int) else e.setpoint - (step : Int)
    remainder := sum % 20000 }

/-- The move of a close, or none in the reversal dwell (R63, R64). -/
def Executor.ramp (e : Executor) (rate dwell : Nat) : Executor :=
  match e.aim dwell with
  | some a => e.move rate a
  | none => { e with remainder := 0 }

/-- The zero run and the last sign at a close (R64), by the setpoint in force for the cycle closed. -/
def Executor.countZero (e : Executor) : Executor :=
  if e.inForce = 0 then { e with zeroRun := satSucc 200000 e.zeroRun }
  else { e with zeroRun := 0, lastSign := signOf e.inForce }

/-- The reversal dwell of the cell settings in ring cycles (R64). -/
def Part.dwellCycles (p : Part) : Nat := 20 * p.cell.dwell

/-! ## Beginning a step (R59) -/

/-- The current step of a station. -/
def Part.currentStep (p : Part) (st : Stn) : Option Step := profileStep (p.profileTable st) (p.profile.get st).step

/-- The torque limit that a RAMP, HOLD, LADDER or NOISE step carries. -/
def Step.torqueLimit (x : Step) : Option Nat :=
  match x with
  | .ramp _ _ limit => some limit
  | .hold _ limit _ => some limit
  | .ladder _ _ _ limit _ _ _ _ _ => some limit
  | .noise _ _ _ limit _ => some limit
  | _ => none

/-- A rung is started: its target, a cleared remainder, phase RAMP (R69). -/
def Part.startRung (p : Part) (st : Stn) : Part :=
  let rpm := profileRung (p.profileTable st) (p.profile.get st).rung
  (p.giveTarget st rpm).modProfile st (fun e => { e with remainder := 0, rungPhase := .ramp })

/-- The kind-specific actions of beginning a step (R65, R66, R69, R72, R73). -/
def Part.beginKind (p : Part) (st : Stn) (x : Option Step) : Part :=
  match x with
  | some (.ramp target _ _) => p.giveTarget st target
  | some (.hold ..) => p.modProfile st (fun e => { e with torqueSum := 0, torqueCount := 0 })
  | some (.ladder start _ _ _ moves _ _ _ budget) =>
    let p := p.modProfile st (fun e => { e with rung := start, movesLeft := moves, measureSpent := false })
    (p.modCollector st (fun c => c.setBudget budget)).startRung st
  | some (.noise windows budget quiet _ settle) =>
    p.modCollector st (fun c => (c.setBudget budget).takeJob { target := windows, quiet := quiet, settle := 20 * settle })
  | some (.leak ..) => p.modProfile st (fun e => { e with leakStarted := false })
  | _ => p

/-- The executor begins a step (R59). -/
def Part.beginStep (p : Part) (st : Stn) (i : Nat) : Part :=
  let x := profileStep (p.profileTable st) i
  let limit := x.bind Step.torqueLimit
  let p := p.modProfile st (fun e =>
    { e with step := i, stepTimer := 0, remainder := 0, torqueLimit := limit.getD e.torqueLimit })
  let p := p.modStation st (fun s => { s with counters := { s.counters with steps := bump s.counters.steps } })
  p.beginKind st x

/-- The end of a step: a pending AT_STEP_END abort takes effect, otherwise the next step is begun (R13, R60). -/
def Part.endStep (p : Part) (st : Stn) (next : Nat) : Part :=
  if (p.profile.get st).pendingAbort then p.enterStopping st else p.beginStep st next

/-- The end of a step whose successor in the table follows. -/
def Part.endStepNext (p : Part) (st : Stn) : Part := p.endStep st ((p.profile.get st).step + 1)

/-- The end of a step that leads to FINISHING: a pending abort takes effect instead (R60, R78, R79). -/
def Part.endProfile (p : Part) (st : Stn) (early : Bool) : Part :=
  if (p.profile.get st).pendingAbort then p.enterStopping st else p.enterFinishing st early

/-- The station is RUNNING. -/
def Part.runningAt (p : Part) (st : Stn) : Bool := decide ((p.station.get st).state = .running)

/-! ## RAMP (R65) and the reversal dwell's end -/

/-- RAMP_STEP_END: the setpoint equals the effective target (R65). -/
def Part.rampReached (p : Part) (st : Stn) : Part :=
  let e := p.profile.get st
  if e.setpoint = e.target then p.endStepNext st else p

/-- A close of a RAMP step: a move toward the aim, and the end of the step. -/
def Part.rampWork (p : Part) (st : Stn) (rate : Nat) : Part :=
  (p.modProfile st (fun e => e.ramp rate p.dwellCycles)).rampReached st

/-! ## HOLD (R66 to R68) -/

/-- The torque of a close is summed when its mark is PRESENT (R66). -/
def Executor.sumTorque (e : Executor) (drive : Option RoleRecord) : Executor :=
  match drive with
  | some r => if r.mark = .present then
      { e with torqueSum := e.torqueSum + r.value.torque, torqueCount := e.torqueCount + 1 } else e
  | none => e

/-- Twice the distance from the middle of the limits (R68). -/
def torqueDistance (k : TorqueCheck) (v : Int) : Nat := (2 * v - k.minimum - k.maximum).natAbs

/-- One evaluation of a torque line with a mean (R67, R68). Of a line that is FAIL with reason SIGNAL, R67 says that the
reason becomes NONE, R169 that it stays as it stood: the model follows R67 (DESIGN CHOICE, log entry 28). -/
def torqueLine (k : TorqueCheck) (mean : Int) (l : CheckLine) : CheckLine :=
  let worst := if l.evaluations = 0 ∨ torqueDistance k l.worst < torqueDistance k mean then mean else l.worst
  { l with
    evaluations := satSucc 255 l.evaluations
    reason := .none
    outcome := if mean < k.minimum ∨ k.maximum < mean then .fail else if l.outcome = .fail then .fail else .pass
    worst := worst
    limit := if k.minimum + k.maximum ≤ 2 * worst then k.maximum else k.minimum }

/-- The torque check of a HOLD (R67): with no torque summed the reason becomes SIGNAL and the rest stays. -/
def Part.torqueCheck (p : Part) (st : Stn) (k : TorqueCheck) : Part :=
  let e := p.profile.get st
  if e.torqueCount = 0 then p.modLine st k.id (fun l => { l with reason := .signal })
  else p.modLine st k.id (torqueLine k (e.torqueSum.tdiv (e.torqueCount : Int)))

/-- HOLD_END: the step timer has reached the duration (R66). -/
def Part.holdEnd (p : Part) (st : Stn) : Part :=
  match p.currentStep st with
  | some (.hold duration _ check) =>
    if p.runningAt st ∧ 20 * duration ≤ (p.profile.get st).stepTimer then
      let p := match check with
        | some k => p.torqueCheck st k
        | none => p
      p.endStepNext st
    else p
  | _ => p

/-- A close of a HOLD step (R66). -/
def Part.holdWork (p : Part) (st : Stn) : Part :=
  let drive := p.roleAt st .drive
  (p.modProfile st (fun e => ({ e with stepTimer := e.stepTimer + 1 }).sumTorque drive)).holdEnd st

/-! ## LADDER (R69 to R71) -/

/-- The rung index is at a boundary (R71). -/
def atBoundary (up : Bool) (rung : Nat) : Bool := if up then decide (15 ≤ rung) else decide (rung = 0)

/-- The rung after a move (R71). -/
def nextRung (up : Bool) (rung : Nat) : Nat :=
  if atBoundary up rung then (if up then 0 else 15) else (if up then rung + 1 else rung - 1)

/-- A rung is done: the LADDER step ends or the next rung is started (R71). -/
def Part.rungDone (p : Part) (st : Stn) (up wrap : Bool) : Part :=
  let e := p.profile.get st
  if e.movesLeft = 0 ∨ (atBoundary up e.rung ∧ !wrap) then p.endStepNext st
  else (p.modProfile st (fun e => { e with rung := nextRung up e.rung, movesLeft := e.movesLeft - 1 })).startRung st

/-- RUNG_DWELL_DONE: the dwell count has reached the rung dwell (R70). -/
def Part.rungDwellDone (p : Part) (st : Stn) : Part :=
  match p.currentStep st with
  | some (.ladder _ up _ _ _ wrap dwell _ _) =>
    let e := p.profile.get st
    if p.runningAt st ∧ e.rungPhase = .dwell ∧ 20 * dwell ≤ e.dwellCount then p.rungDone st up wrap else p
  | _ => p

/-- RUNG_MEASURE_DONE: the collector has reported DONE or EXHAUSTED for a measuring rung (R70, R101). `report` is the
step report as the executor reads it; it ends one rung, and none when it has been taken since. -/
def Part.rungMeasureDone (p : Part) (st : Stn) (report : StepReport) : Part :=
  match p.currentStep st with
  | some (.ladder _ up _ _ _ wrap _ _ _) =>
    let e := p.profile.get st
    if p.runningAt st ∧ e.rungPhase = .measure ∧ report ≠ .none ∧ (p.collector.get st).report ≠ .none then
      let p := p.modProfile st (fun e => { e with measureSpent := e.measureSpent || decide (report = .exhausted) })
      (p.modCollector st (fun c => { c with report := .none })).rungDone st up wrap
    else p
  | _ => p

/-- The rung is reached: MEASURE with a job for the collector, or DWELL (R69, R70). -/
def Part.rungReached (p : Part) (st : Stn) (dwell : Nat) (measure : Bool) : Part :=
  let e := p.profile.get st
  if e.setpoint = e.target then
    if measure ∧ !e.measureSpent then
      (p.modProfile st (fun e => { e with dwellCount := 0, rungPhase := .measure })).modCollector st
        (fun c => c.takeJob { target := 1, quiet := false, settle := 20 * dwell })
    else (p.modProfile st (fun e => { e with dwellCount := 0, rungPhase := .dwell })).rungDwellDone st
  else p

/-- A close of a LADDER step (R69, R70). -/
def Part.ladderWork (p : Part) (st : Stn) (rate dwell : Nat) (measure : Bool) (report : StepReport) : Part :=
  match (p.profile.get st).rungPhase with
  | .ramp => (p.modProfile st (fun e => e.ramp rate p.dwellCycles)).rungReached st dwell measure
  | .dwell => (p.modProfile st (fun e => { e with dwellCount := e.dwellCount + 1 })).rungDwellDone st
  | .measure => p.rungMeasureDone st report

/-- REVERSAL_DWELL_END: the zero run has reached the reversal dwell, and the ramp makes its first move to the other
sign (R64), after which the step's own test is made (R65, R69). -/
def Part.reversalDwellEnd (p : Part) (st : Stn) : Part :=
  let e := p.profile.get st
  if p.runningAt st ∧ e.reversing ∧ p.dwellCycles ≤ e.zeroRun then
    match p.currentStep st with
    | some (.ramp _ rate _) => p.rampWork st rate
    | some (.ladder _ _ rate _ _ _ dwell measure _) =>
      if e.rungPhase = .ramp then p.ladderWork st rate dwell measure .none else p
    | _ => p
  else p

/-! ## NOISE, LEAK and WAIT_LEAK (R72 to R74) -/

/-- NOISE_STEP_END: the collector has reported DONE or EXHAUSTED (R72, R101). A report ends one step, and none when it has
been taken since the executor read it. -/
def Part.noiseStepEnd (p : Part) (st : Stn) (report : StepReport) : Part :=
  match p.currentStep st with
  | some (.noise ..) =>
    if p.runningAt st ∧ report ≠ .none ∧ (p.collector.get st).report ≠ .none then
      (p.modCollector st (fun c => { c with report := .none })).endStepNext st
    else p
  | _ => p

/-- LEAK_SEQUENCE_START: a LEAK step that has not started its sequence finds the sequencer IDLE (R73, R124); in
OVERLAP mode the step ends. `phase` is the phase as the executor reads it. -/
def Part.leakSequenceStart (p : Part) (st : Stn) (phase : Phase) : Part :=
  match p.currentStep st with
  | some (.leak which overlap) =>
    if p.runningAt st ∧ !(p.profile.get st).leakStarted ∧ phase = .idle ∧ (p.leak.get st).phase = .idle then
      let p := (p.leakBegin st which).modProfile st (fun e => { e with leakStarted := true })
      if overlap then p.endStepNext st else p
    else p
  | _ => p

/-- WAIT_LEAK_END: a WAIT_LEAK step, or a LEAK step in WAIT mode that has started its sequence, finds the sequencer
IDLE (R73, R74). -/
def Part.waitLeakEnd (p : Part) (st : Stn) (phase : Phase) : Part :=
  match p.currentStep st with
  | some .waitLeak => if p.runningAt st ∧ phase = .idle then p.endStepNext st else p
  | some (.leak _ overlap) =>
    if p.runningAt st ∧ (p.profile.get st).leakStarted ∧ !overlap ∧ phase = .idle then p.endStepNext st else p
  | _ => p

/-- A close of a LEAK step (R73). -/
def Part.leakStepWork (p : Part) (st : Stn) (phase : Phase) : Part :=
  if (p.profile.get st).leakStarted then p.waitLeakEnd st phase else p.leakSequenceStart st phase

/-! ## Loops and exits (R75 to R79) -/

/-- The matching END_REPEAT, read forward from step `i` with a nesting count (spec/04, 4.1); `fuel` bounds the search
by the table's length. -/
def matchingEnd (table : List Entry) : Nat → Nat → Nat → Nat
  | 0, i, _ => i
  | fuel + 1, i, depth =>
    match profileStep table i with
    | some (.repeatLoop _) => matchingEnd table fuel (i + 1) (depth + 1)
    | some .endRepeat => if depth ≤ 1 then i else matchingEnd table fuel (i + 1) (depth - 1)
    | _ => matchingEnd table fuel (i + 1) depth

/-- REPEAT (R75). -/
def Part.repeatWork (p : Part) (st : Stn) (count : Nat) : Part :=
  let i := (p.profile.get st).step
  let last := matchingEnd (p.profileTable st) 64 (i + 1) 1
  if count = 0 then p.endStep st (last + 1)
  else
    let frame : LoopFrame := { firstBody := i + 1, endIndex := last, remaining := count }
    (p.modProfile st (fun e => { e with loops := frame :: e.loops })).endStep st (i + 1)

/-- END_REPEAT (R76). -/
def Part.endRepeatWork (p : Part) (st : Stn) : Part :=
  match (p.profile.get st).loops with
  | frame :: rest =>
    if 1 < frame.remaining then
      (p.modProfile st (fun e => { e with loops := { frame with remaining := frame.remaining - 1 } :: rest })).endStep st
        frame.firstBody
    else (p.modProfile st (fun e => { e with loops := rest })).endStepNext st
  | [] => p.endStepNext st

/-- EXIT_IF_FAILED (R77). -/
def Part.exitIfFailedWork (p : Part) (st : Stn) : Part :=
  match (p.profile.get st).loops with
  | frame :: rest =>
    if rejected (p.station.get st).lines then
      (p.modProfile st (fun e => { e with loops := rest })).endStep st (frame.endIndex + 1)
    else p.endStepNext st
  | [] => p.endStepNext st

/-- STOP_IF_REJECTED (R78). -/
def Part.stopIfRejectedWork (p : Part) (st : Stn) : Part :=
  if rejected (p.station.get st).lines then p.endProfile st true else p.endStepNext st

/-! ## The executor's work at a close -/

/-- The current step's work and end test (R60). `pre` gives the step report and the leak phase as they stood before
the collector's and the sequencer's own work at this close. -/
def Part.stepWork (pre p : Part) (st : Stn) : Part :=
  let report := (pre.collector.get st).report
  let phase := (pre.leak.get st).phase
  match p.currentStep st with
  | some (.ramp _ rate _) => p.rampWork st rate
  | some (.hold ..) => p.holdWork st
  | some (.ladder _ _ rate _ _ _ dwell measure _) => p.ladderWork st rate dwell measure report
  | some (.noise ..) => p.noiseStepEnd st report
  | some (.leak ..) => p.leakStepWork st phase
  | some .waitLeak => p.waitLeakEnd st phase
  | some (.repeatLoop count) => p.repeatWork st count
  | some .endRepeat => p.endRepeatWork st
  | some .exitIfFailed => p.exitIfFailedWork st
  | some .stopIfRejected => p.stopIfRejectedWork st
  | some .finish => p.endProfile st false
  | none => p

/-- The ramp to 0 of FINISHING and STOPPING at the stop ramp, with no reversal dwell (R81). -/
def Part.runDown (p : Part) (st : Stn) : Part :=
  p.modProfile st (fun e => e.move p.cell.stopRamp 0)

/-- The executor's work at a close: the zero run whatever the station state (R64), then the step (R60) or the ramp to
0 (R81). -/
def Part.profileWork (pre p : Part) (st : Stn) : Part :=
  let p := p.modProfile st Executor.countZero
  match (p.station.get st).state with
  | .running => Part.stepWork pre p st
  | .finishing | .stopping => p.runDown st
  | .idle | .prep | .halted => p

end Sys2Proof.Machine
end

