-- ==== Sys2Proof/Machine/Router.lean ====
section
/-!
DEFINITION. Chapter 2, sections 2.4 to 2.7: the channel map, the arrival of sample frames, the values formed at a
cycle close, and channel silence.
-/
namespace Sys2Proof.Machine

open Sys2Proof

/-! ## The map (R36, R43) -/

/-- A map entry after a load: seen flag clear, no frame, no source (R43). -/
def freshChannel (e : MapEntry) : Channel := { entry := e, seen := false, frame := none, source := none }

/-- A role record after a load (R43). -/
def freshRole (e : MapEntry) : RoleRecord :=
  { owner := e.owner, role := e.role, skew := e.skew, value := roleZero e.role, mark := .missing, missing := 0,
    silent := false, source := none }

/-- The role records of a map: one for each owner and role, with the skew of its lowest-numbered entry (R36). -/
def roleRecords (es : List MapEntry) : List RoleRecord :=
  es.foldl (fun acc e =>
    if acc.any (fun r => r.owner = e.owner && r.role = e.role) then acc else acc ++ [freshRole e]) []

/-- The router after a MAP table has become READY (R43). -/
def routerOf (table : List Entry) : Router :=
  let es := table.map mapEntryOf
  { entries := es.map freshChannel, roles := roleRecords es }

/-! ## The arrival of a frame (R35, R37) -/

/-- An entry matches a source address (R35). -/
def MapEntry.matchesSource (e : MapEntry) (source : Addr) : Bool := (source &&& e.mask) == e.base

/-- The frame is recorded in the claiming entry (R37). -/
def Channel.record (c : Channel) (x : Sample) (source : Addr) : Channel :=
  { c with seen := true, frame := some x, source := some source }

/-- The lowest-numbered matching entry claims the frame: the entries after it, and the entry that took it, if one
did (R35). -/
def claim (x : Sample) (source : Addr) : List Channel → List Channel × Option MapEntry
  | [] => ([], none)
  | c :: cs =>
    if c.entry.matchesSource source then
      if roleReads c.entry.role x && !c.seen then (c.record x source :: cs, some c.entry) else (c :: cs, none)
    else
      let r := claim x source cs
      (c :: r.1, r.2)

/-- The router after a good frame of a sample kind, and the entry that took it (R35, R37); the role remembers the
source (R31). -/
def Router.take (r : Router) (x : Sample) (source : Addr) : Router × Option MapEntry :=
  let c := claim x source r.entries
  match c.2 with
  | some e =>
    ({ entries := c.1, roles := r.roles.map (fun k =>
        if k.owner = e.owner ∧ k.role = e.role then { k with source := some source } else k) }, some e)
  | none => ({ r with entries := c.1 }, none)

/-! ## The close (R38) -/

/-- An entry delivered in the cycle (R38). -/
def Channel.delivered (c : Channel) : Option Sample :=
  if c.seen then
    match c.frame with
    | some x => if x.faulted then none else some x
    | none => none
  else none

/-- The serving frame of a role: that of its lowest-numbered entry that delivered (R38). -/
def serving (owner : Option Stn) (role : Role) (cs : List Channel) : Option Sample :=
  cs.findSome? (fun c => if c.entry.owner = owner ∧ c.entry.role = role then c.delivered else none)

/-- A role record at a close (R38), and whether its missing count becomes 2,000 (R40). -/
def RoleRecord.form (r : RoleRecord) (cs : List Channel) : RoleRecord :=
  match serving r.owner r.role cs with
  | some x =>
    { r with value := x, mark := if x.overloaded then .overload else .present, missing := 0, silent := false }
  | none =>
    { r with mark := .missing, missing := satSucc 65535 r.missing, silent := decide (r.missing = 1999) }

/-- The seen flags are cleared and the frames of the cycle dropped (R32, R38). -/
def Router.clearSeen (r : Router) : Router :=
  { r with entries := r.entries.map (fun c => { c with seen := false, frame := none }) }

/-- The router's part of a cycle close (R38). -/
def Router.formValues (r : Router) : Router :=
  let formed : Router := { r with roles := r.roles.map (fun k => RoleRecord.form k r.entries) }
  formed.clearSeen

/-- The silence reports of the close have all been taken. -/
def Router.clearSilent (r : Router) : Router := { r with roles := r.roles.map (fun k => { k with silent := false }) }

/-! ## Channel silence (R40) -/

/-- A role that reports silence at this close is in the station's required set. -/
def Part.silenceAt (p : Part) (st : Stn) : Bool :=
  p.router.roles.any (fun r => r.silent && decide (r.owner = roleOwner st r.role) &&
    decide (r.role ∈ (p.station.get st).required))

/-- The silence reports of a close as one station's controller takes them (R40). -/
def Part.silenceWork (p : Part) (st : Stn) : Part := if p.silenceAt st then p.halt st .signalLoss else p

/-- SIGNAL_LOSS of one role, whose missing count became 2,000 at the latest close: every active station that requires it
halts (R40). -/
def Part.signalLoss (p : Part) (owner : Option Stn) (role : Role) (order : List Stn) : Part :=
  match p.roleRecord owner role with
  | some r =>
    if r.missing = 2000 then
      (stationOrder order).foldl (fun p st =>
        if owner = roleOwner st role ∧ role ∈ (p.station.get st).required then p.halt st .signalLoss else p) p
    else p
  | none => p

end Sys2Proof.Machine
end

