-- ==== Sys2Proof/Machine/Stations.lean ====
section
/-!
DEFINITION. Chapter 1: the station controller. Acceptance of START_AXLE, PREP, the ends of FINISHING and STOPPING,
ABORT, CLEAR_STATION, the snapshot, and the station's reset.
-/
namespace Sys2Proof.Machine

open Sys2Proof

/-! ## PREP (R7, R8) -/

/-- A role delivered at the close just made (R7, R38). -/
def Part.deliveredAt (p : Part) (st : Stn) (r : Role) : Bool :=
  match p.roleAt st r with
  | some x => decide (x.mark ≠ .missing)
  | none => false

/-- The live runs after a close (R7). -/
def Part.liveAfter (p : Part) (st : Stn) : List Nat :=
  let x := p.station.get st
  List.zipWith (fun r n => if p.deliveredAt st r then satSucc 20 n else 0) x.required x.live

/-- The conditions of R7: every live run is 20, and DRIVE delivered at this close with its ready flag set. -/
def Part.prepReady (p : Part) (st : Stn) : Bool :=
  let x := p.station.get st
  decide (x.state = .prep) && x.live.all (fun n => n == 20) && p.deliveredAt st .drive &&
    ((p.roleAt st .drive).map (fun r => r.value.driveReady)).getD false

/-- PREP_TO_RUNNING: the station enters RUNNING and step 0 begins (R7, R58). -/
def Part.prepToRunning (p : Part) (st : Stn) : Part :=
  if p.prepReady st then (p.modStation st (fun x => { x with state := .running })).beginStep st 0 else p

/-- The PREP timer has reached 2,000 (R8). -/
def Part.prepOverdue (p : Part) (st : Stn) : Bool :=
  let x := p.station.get st
  decide (x.state = .prep) && decide (2000 ≤ x.prepTimer)

/-- PREP_TIMEOUT: the station halts with NO_SIGNAL (R8), unless R7's conditions take it to RUNNING. -/
def Part.prepTimeout (p : Part) (st : Stn) : Part :=
  if p.prepOverdue st && !p.prepReady st then p.halt st .noSignal else p

/-- A close in PREP (R7, R8): live runs, the test of R7, then the timer. -/
def Part.prepWork (p : Part) (st : Stn) : Part :=
  let live := p.liveAfter st
  let p := p.modStation st (fun x => { x with live := live })
  if p.prepReady st then p.prepToRunning st
  else (p.modStation st (fun x => { x with prepTimer := satSucc 2000 x.prepTimer })).prepTimeout st

/-! ## The ends of FINISHING and STOPPING (R10, R15) -/

/-- The four conditions of R10 and R15. `pre` gives the leak phase and the collector state as they stood before the
sequencer's and the collector's own work at this close. -/
def Part.atRest (pre p : Part) (st : Stn) : Bool :=
  decide ((p.profile.get st).setpoint = 0)
    && (match (p.tracker.get st).speed with
      | some v => decide (v.natAbs < 5)
      | none => false)
    && decide ((pre.leak.get st).phase = .idle) && decide ((pre.collector.get st).state ≠ .evaluating)

/-- FINISHING_END: the test ends with COMPLETE or EARLY_STOP (R10). -/
def Part.finishingEnd (pre p : Part) (st : Stn) : Part :=
  let x := p.station.get st
  if x.state = .finishing ∧ Part.atRest pre p st then
    p.endTest st (if x.earlyStop then .earlyStop else .complete) .idle
  else p

/-- STOPPING_END: the report is written with end kind ABORTED (R15). -/
def Part.stoppingEnd (pre p : Part) (st : Stn) : Part :=
  if (p.station.get st).state = .stopping ∧ Part.atRest pre p st then p.endTest st .aborted .idle else p

/-- The station controller's work at a close. A station takes the test of the state in which the close found it: what
enters PREP, FINISHING or STOPPING at this close is tested from the next close on (log entry 14). -/
def Part.controlWork (pre p : Part) (st : Stn) : Part :=
  let state := (p.station.get st).state
  if (pre.station.get st).state ≠ state then p
  else match state with
    | .prep => p.prepWork st
    | .finishing => Part.finishingEnd pre p st
    | .stopping => Part.stoppingEnd pre p st
    | .idle | .running | .halted => p

/-! ## The tests of START_AXLE (R1 to R4) -/

/-- The torque checks of a profile table's HOLD steps, in step order. -/
def torqueChecks (table : List Entry) : List TorqueCheck :=
  (List.range (headerSteps (table.getD 0 []))).filterMap (fun i =>
    match profileStep table i with
    | some (.hold _ _ check) => check
    | _ => none)

/-- The tables that a variant names, as a START finds them. -/
structure Named where
  variant : Variant
  profile : List Entry
  limits : List LimitEntry
  leakA : Option LeakRecord
  leakB : Option LeakRecord
  deriving DecidableEq, Repr

/-- A slot that a table may be bound from: READY (R2). -/
def Tables.ready (t : Tables) (k : Kind) (n : Nat) : Bool := decide ((t.slot k n).state = .ready)

/-- A slot named or not: not named, or READY. -/
def Tables.readyIfNamed (t : Tables) (k : Kind) (n : Option Nat) : Bool :=
  match n with
  | some i => t.ready k i
  | none => true

/-- Test 3 of R1: the variant slot and every slot the variant names are READY; the tables then (R2). -/
def Tables.named (t : Tables) (slot : Nat) : Option Named :=
  let v := variantOf (t.slot .variant slot).table
  if t.ready .variant slot && t.ready .profile v.profile && t.readyIfNamed .limit v.limit
      && t.readyIfNamed .leak v.leakA && t.readyIfNamed .leak v.leakB then
    some
      { variant := v, profile := (t.slot .profile v.profile).table
        limits := match v.limit with
          | some i => (t.slot .limit i).table.map limitOf
          | none => []
        leakA := v.leakA.map (fun i => leakOf (t.slot .leak i).table)
        leakB := v.leakB.map (fun i => leakOf (t.slot .leak i).table) }
  else none

/-- The check ids of the named tables, one list for each table (R2). -/
def Named.ids (n : Named) : List (List Nat) :=
  [(torqueChecks n.profile).map TorqueCheck.id, n.limits.map LimitEntry.checkId,
    n.leakA.toList.map LeakRecord.checkId, n.leakB.toList.map LeakRecord.checkId]

/-- One check id appears in two of the lists. -/
def idsClash : List (List Nat) → Bool
  | [] => false
  | ids :: rest => ids.any (fun i => rest.any (fun other => i ∈ other)) || idsClash rest

/-- A LEAK step names a leak that the variant does not name (R2). -/
def Named.leakMissing (n : Named) : Bool :=
  (List.range (headerSteps (n.profile.getD 0 []))).any (fun i =>
    match profileStep n.profile i with
    | some (.leak .a _) => n.leakA.isNone
    | some (.leak .b _) => n.leakB.isNone
    | _ => false)

/-- The required set (R3). -/
def Named.required (n : Named) : List Role :=
  (allStations.filter (fun ch => n.limits.any (fun e => e.channel = ch))).map vibRole ++ [.tach, .drive]
    ++ (if n.leakA.isSome || n.leakB.isSome then [.press, .temp, .valve] else [])

/-- A role is in the channel map for the station (R3). -/
def Part.mapped (p : Part) (st : Stn) (r : Role) : Bool :=
  p.router.entries.any (fun c => c.entry.owner = roleOwner st r ∧ c.entry.role = r)

/-- The tests of R1 in their order: the refusal, or the tables of an accepted START. The station and slot of a START
code are always in range (spec/11, 11.2). -/
def Part.startTests (p : Part) (st : Stn) (slot : BitVec 5) : Except ReplyCode Named :=
  if (p.station.get st).state ≠ .idle then .error .busy
  else match p.tables.named slot.toNat with
    | none => .error .noTable
    | some n =>
      if idsClash n.ids || n.leakMissing then .error .badVariant
      else if !n.required.all (p.mapped st) then .error .noChannel
      else if p.reports.held.length + p.reports.reservations = 12 then .error .storeFull
      else .ok n

/-! ## Accepting START_AXLE (R5) -/

/-- The line of a check id at START (R5, R170). -/
def freshLine (id : Nat) (family : Family) (grade : Grade) (limit : Int) : CheckLine :=
  { id := id, family := family, grade := grade, outcome := .notMeasured, reason := .notReached, evaluations := 0,
    worst := 0, limit := limit, speedAtWorst := 0, windowAtWorst := 0 }

/-- The line that the named tables give a check id, if one carries it (R170). -/
def Named.line (n : Named) (id : Nat) : Option CheckLine :=
  match n.limits.find? (fun e => e.checkId = id) with
  | some e => some (freshLine id e.family e.grade (e.limit : Int))
  | none =>
    match (torqueChecks n.profile).find? (fun k => k.id = id) with
    | some k => some (freshLine id .torque k.grade k.maximum)
    | none =>
      match (n.leakA.toList ++ n.leakB.toList).find? (fun r => r.checkId = id) with
      | some r => some (freshLine id .leak r.grade (r.rateLimit : Int))
      | none => none

/-- The check list of a START, in ascending check id (R5, R170). -/
def Named.lines (n : Named) : List CheckLine := (List.range 64).filterMap n.line

/-- A slot with its current generation. -/
def Tables.ref (t : Tables) (k : Kind) (n : Nat) : SlotRef := { slot := n, generation := (t.slot k n).generation }

/-- The binding of a START (R5). -/
def Tables.bind (t : Tables) (slot : Nat) (v : Variant) : Binding :=
  { variant := some (t.ref .variant slot), profile := some (t.ref .profile v.profile)
    limit := v.limit.map (t.ref .limit), leakA := v.leakA.map (t.ref .leak), leakB := v.leakB.map (t.ref .leak) }

/-- One slot's reference count rises (R5, R154). -/
def Tables.addReference (t : Tables) (k : Kind) (r : Option SlotRef) : Tables :=
  match r with
  | some ref => t.setSlot k ref.slot { t.slot k ref.slot with references := (t.slot k ref.slot).references + 1 }
  | none => t

/-- The references of a binding are raised (R5). -/
def Tables.addReferences (t : Tables) (b : Binding) : Tables :=
  ((((t.addReference .variant b.variant).addReference .profile b.profile).addReference .limit b.limit).addReference
    .leak b.leakA).addReference .leak b.leakB

/-- The station record at an accepted START (R5). -/
def Station.start (x : Station) (n : Named) (b : Binding) (serial : Entry) (cycle : BitVec 32) : Station :=
  { x with
    state := .prep, serial := serial, variantCode := n.variant.code, binding := b, required := n.required
    live := n.required.map (fun _ => 0), prepTimer := 0, lines := n.lines, startCycle := cycle, endCycle := none
    haltReason := .none, earlyStop := false, clamped := false, counters := Counters.reset }

/-- The executor at START (R58): the last sign and the zero run are kept, and so is the rung phase. -/
def Executor.start (e : Executor) : Executor :=
  { e with
    step := 0, stepTimer := 0, loops := [], setpoint := 0, remainder := 0, torqueLimit := 0, rung := 0, movesLeft := 0
    dwellCount := 0, measureSpent := false, torqueSum := 0, torqueCount := 0, leakStarted := false
    pendingAbort := false }

/-- The collector at START (R105). -/
def Collector.start (c : Collector) : Collector :=
  { c with job := none, budget := 0, evaluated := 0, report := .none, exhausted := false }

/-- START_AXLE is accepted (R5, R44, R58, R105, R111, R150). -/
def Part.accept (p : Part) (st : Stn) (slot : BitVec 5) (serial : Entry) (n : Named) : Part :=
  let b := p.tables.bind slot.toNat n.variant
  let p := p.abandonEvaluation st
  let p := p.modStation st (fun x => x.start n b serial p.cycleNow)
  let p := p.modTables (fun t => t.addReferences b)
  let p := p.modReports (fun r => { r with reservations := r.reservations + 1 })
  let p := p.modTracker st (fun _ => Tracker.start (headerP (n.profile.getD 0 [])))
  let p := p.modProfile st Executor.start
  let p := p.modCollector st Collector.start
  p.modLeak st (fun x => { x with detailA := Detail.reset, detailB := Detail.reset })

/-! ## The station commands -/

/-- What a block answers to a command it was handed: the part after it, the reply code, the result bytes, and the
second frame's result bytes of an OK FETCH_REPORT (R187, R198). -/
structure Answer where
  part : Part
  reply : ReplyCode
  results : List Byte
  second : Option (List Byte)
  deriving DecidableEq, Repr

/-- An OK with results and a new part. -/
def Part.ok (p : Part) (results : List Byte) : Answer := { part := p, reply := .ok, results := results, second := none }

/-- A refusal: nothing changes and the results are 0. -/
def Part.refuse (p : Part) (code : ReplyCode) : Answer := { part := p, reply := code, results := [], second := none }

/-- START_AXLE (R1, R5). -/
def Part.startAxle (p : Part) (st : Stn) (slot : BitVec 5) (serial : Entry) : Answer :=
  match p.startTests st slot with
  | .error code => p.refuse code
  | .ok n => (p.accept st slot serial n).ok []

/-- The modes of ABORT: true is AT_STEP_END (R12; spec/11, 11.2). -/
def abortMode (b : Byte) : Option Bool :=
  match b.toNat with
  | 0 => some false
  | 1 => some true
  | _ => none

/-- ABORT of a station, by its state and the mode (R12). -/
def Part.abortStation (p : Part) (st : Stn) (atStepEnd : Bool) : Answer :=
  match (p.station.get st).state with
  | .idle | .halted => p.refuse .notActive
  | .prep | .finishing => (p.enterStopping st).ok []
  | .running =>
    (if atStepEnd then p.modProfile st (fun e => { e with pendingAbort := true }) else p.enterStopping st).ok []
  | .stopping => p.ok []

/-- ABORT (R12). -/
def Part.abort (p : Part) (station mode : Byte) : Answer :=
  match stationOfByte station, abortMode mode with
  | some st, some atStepEnd => p.abortStation st atStepEnd
  | _, _ => p.refuse .badArg

/-- CLEAR_STATION (R18). -/
def Part.clearStation (p : Part) (station : Byte) : Answer :=
  match stationOfByte station with
  | none => p.refuse .badArg
  | some st =>
    if (p.station.get st).state = .halted then (p.modStation st (fun x => { x with state := .idle })).ok []
    else p.refuse .notHalted

/-! ## The snapshot (R20, R21) -/

/-- The sum of the six invalid-window counts, stopping at 65,535. -/
def Counters.invalidSum (k : Counters) : Nat :=
  min (k.disturbed + k.unsteady + k.defect + k.direction + k.index + k.overtime) 65535

/-- Cycles since start (spec/01, 1.9): to now in an active state, to the end cycle of the last test otherwise. -/
def Part.cyclesSinceStart (p : Part) (st : Stn) : BitVec 32 :=
  let x := p.station.get st
  if x.state.active then p.cycleNow - x.startCycle
  else match x.endCycle with
    | some c => c - x.startCycle
    | none => 0

/-- The latest pressure: the held value of the station's PRESS role, or 0 without one (R36). -/
def Part.latestPressure (p : Part) (st : Stn) : Nat := ((p.roleAt st .press).map (fun r => r.value.pressure)).getD 0

/-- The 32-byte snapshot record of a station (spec/11, 11.4). -/
def Part.snapshotRecord (p : Part) (st : Stn) : List Byte :=
  let x := p.station.get st
  let e := p.profile.get st
  let verdict := if rejected x.lines then 1 else 0
  let first := [b8 (st.val + 4 * x.state.code + 32 * verdict), b8 e.step,
      b8 (e.loops.length + 8 * (p.collector.get st).state.code), b8 (p.leak.get st).phase.code]
    ++ z16 (e.setpoint.tdiv 1024) ++ z16 ((p.tracker.get st).speed.getD 0) ++ n24 (p.latestPressure st)
    ++ n16 x.counters.valid ++ n16 x.counters.invalidSum
  let second := [b8 st.val] ++ out32 (p.cyclesSinceStart st)
    ++ [b8 (x.lines.countP (fun l => l.outcome = .fail)), b8 (x.lines.countP (fun l => l.outcome = .notMeasured))]
  padTo 16 first ++ padTo 16 second

/-- SNAPSHOT (R20): the capture is replaced, and the reply carries its bytes 0 to 14. -/
def Part.snapshot (p : Part) (station : Byte) : Answer :=
  match stationOfByte station with
  | none => p.refuse .badArg
  | some st =>
    let record := p.snapshotRecord st
    ({ p with capture := some { station := st, record := record } }).ok (record.take 15)

/-- SNAPSHOT_READ (R21): bytes 16 to 30 of the capture. -/
def Part.snapshotRead (p : Part) : Answer :=
  match p.capture with
  | some c => p.ok ((c.record.drop 16).take 15)
  | none => p.refuse .empty

end Sys2Proof.Machine
end

