-- ==== Sys2Proof/Machine/Tables.lean ====
section
/-!
DEFINITION. Chapter 8: the table store. Loading, validation, clearing and the status of a slot.
-/
namespace Sys2Proof.Machine

open Sys2Proof

/-! ## Detail codes (R159; spec/11, 11.5) -/

/-- The faults that validation names. -/
inductive BadTable where
  | count | range | loop | finish | ladder | order | band | dupId | exclusion | torqueId
  deriving DecidableEq, Repr

/-- Detail codes of BAD_TABLE. -/
def BadTable.code (x : BadTable) : Nat :=
  match x with
  | .count => 1 | .range => 2 | .loop => 3 | .finish => 4 | .ladder => 5 | .order => 6 | .band => 7 | .dupId => 8
  | .exclusion => 9 | .torqueId => 10

/-! ## Field ranges (R160 to R165, R199) -/

/-- Every byte of an entry outside the given positions is 0 (R199). -/
def unusedZero (e : Entry) (used : List Nat) : Bool := (List.range 16).all (fun i => used.contains i || u8 e i == 0)

/-- A value in a closed range. -/
def within (low high n : Nat) : Bool := decide (low ≤ n ∧ n ≤ high)

/-- A speed of a table: -30,000 to 30,000 rpm. -/
def speedOk (v : Int) : Bool := decide (-30000 ≤ v ∧ v ≤ 30000)

/-- The header of a PROFILE table (R160). -/
def headerOk (e : Entry) : Bool :=
  unusedZero e [0, 1, 2, 3] && within 64 4096 (u16 e 0) && within 1 64 (u8 e 2) && within 0 1 (u8 e 3)

/-- The fields of a HOLD step (R160, R199). -/
def holdOk (e : Entry) : Bool :=
  if u8 e 7 = 1 then
    unusedZero e [0, 1, 2, 5, 6, 7, 8, 9, 10, 11, 12, 13] && within 1 65535 (u16 e 1) && within 0 63 (u8 e 8)
      && within 0 2 (u8 e 9)
  else u8 e 7 == 0 && unusedZero e [0, 1, 2, 5, 6, 7] && within 1 65535 (u16 e 1)

/-- The fields of a LADDER step (R160). -/
def ladderOk (e : Entry) : Bool :=
  unusedZero e [0, 1, 2, 3, 4, 5, 6, 7, 8, 9, 10, 11, 12] && within 0 15 (u8 e 1) && within 0 1 (u8 e 2)
    && within 1 20000 (u16 e 3) && within 1 64 (u8 e 7) && within 0 1 (u8 e 8) && within 0 1 (u8 e 11)
    && within 0 15 (u8 e 12)

/-- The RANGE check of a step entry (R160, R199). -/
def stepOk (e : Entry) : Bool :=
  match u8 e 0 with
  | 1 => unusedZero e [0, 1, 2, 3, 4, 5, 6] && speedOk (i16 e 1) && within 1 20000 (u16 e 3)
  | 2 => holdOk e
  | 3 => ladderOk e
  | 4 => unusedZero e [0, 1, 2, 3, 5, 6, 9, 10] && within 1 8 (u8 e 1) && within 0 15 (u8 e 2) && within 0 1 (u8 e 3)
  | 5 => unusedZero e [0, 1, 2] && within 0 1 (u8 e 1) && within 0 1 (u8 e 2)
  | 7 => unusedZero e [0, 1]
  | 6 | 8 | 9 | 10 | 11 => unusedZero e [0]
  | _ => false

/-- The BAND check of a step entry: a torque check whose minimum is above its maximum (R160). -/
def stepBandOk (e : Entry) : Bool :=
  match stepOf e with
  | some (.hold _ _ (some k)) => decide (k.minimum ≤ k.maximum)
  | _ => true

/-- The RANGE check of a ladder entry (R160). -/
def rungsOk (e : Entry) : Bool := (List.range 8).all (fun r => speedOk (i16 e (2 * r)))

/-- The RANGE check of a limit entry (R161, R199). -/
def limitOk (e : Entry) : Bool :=
  unusedZero e [0, 1, 2, 3, 4, 5, 6, 7, 8, 9, 10, 11] && within 0 63 (u8 e 0) && within 0 1 (u8 e 1)
    && within 0 3 (u8 e 2) && within 0 2 (u8 e 3) && speedOk (i16 e 5) && speedOk (i16 e 7) && within 0 131071 (u24 e 9)

/-- The RANGE check of the two entries of a LEAK table (R162, R199). -/
def leakOk (i : Nat) (e : Entry) : Bool :=
  if i = 0 then
    unusedZero e [0, 1, 2, 3, 4, 5, 6, 7, 8, 9, 10, 11, 12] && within 0 63 (u8 e 0) && within 0 2 (u8 e 1)
      && within 110000 800000 (u24 e 2) && within 100 65535 (u16 e 5) && within 0 65535 (u16 e 7)
      && within 1000 60000 (u16 e 9) && within 100 65535 (u16 e 11)
  else
    unusedZero e [0, 1, 2, 3, 4, 5, 6] && within 1 100000 (u24 e 0) && within 0 100000 (u24 e 3)
      && within 0 1 (u8 e 6)

/-- A slot byte that may name none (R163, R199). -/
def slotOrNone (top n : Nat) : Bool := within 0 top n || n == 255

/-- The RANGE check of the two entries of a VARIANT table (R163, R199). -/
def variantOk (i : Nat) (e : Entry) : Bool :=
  if i = 0 then
    unusedZero e [0, 1, 2, 3, 4, 5] && within 0 15 (u8 e 2) && slotOrNone 15 (u8 e 3) && slotOrNone 7 (u8 e 4)
      && slotOrNone 7 (u8 e 5)
  else
    unusedZero e [0, 1, 2, 3, 4, 5] && within 0 6 (u8 e 0) && within 1 25 (u8 e 1) && within 100 65535 (u16 e 4)

/-- The role suits the station (R164). -/
def roleSuits (station role : Nat) : Bool :=
  if station = 4 then role == 8 else within 0 3 station && within 0 7 role

/-- The RANGE check of a MAP entry (R164, R199). -/
def mapOk (e : Entry) : Bool :=
  unusedZero e [0, 1, 2, 3, 4] && within 0 63 (u8 e 0) && within 0 63 (u8 e 1) && roleSuits (u8 e 2) (u8 e 3)
    && within 0 3 (u8 e 4) && (within 0 3 (u8 e 3) || u8 e 4 == 0)

/-- The RANGE check of the three entries of a CELL table (R165, R199). -/
def cellOk (i : Nat) (e : Entry) : Bool :=
  if i = 0 then
    unusedZero e [0, 1, 2, 3, 4, 5, 6, 7, 8, 9, 10] && within 100 6000 (u16 e 0) && within 100 20000 (u16 e 2)
      && within 0 10000 (u16 e 4) && within 0 5000 (u16 e 6) && within 1000 65535 (u16 e 8) && within 0 4 (u8 e 10)
  else if i = 1 then (List.range 16).all (fun k => within 0 3 (u8 e k))
  else unusedZero e [0, 1, 2, 3, 4, 5, 6, 7] && (List.range 8).all (fun k => within 0 3 (u8 e k))

/-! ## Entry checks: RANGE, BAND, ORDER, EXCLUSION (R159, stage 3) -/

/-- The first fault of one entry of a PROFILE table with `steps` steps; entry 0 has been checked at stage 2. -/
def profileEntryFault (steps i : Nat) (e : Entry) : Option BadTable :=
  if i = 0 then none
  else if i ≤ steps then
    if !stepOk e then some .range else if !stepBandOk e then some .band else none
  else if !rungsOk e then some .range else none

/-- The first fault of one limit entry (R161). -/
def limitEntryFault (e : Entry) : Option BadTable :=
  if !limitOk e then some .range
  else if i16 e 7 < i16 e 5 then some .band
  else if u8 e 1 = 0 ∧ !within 1 127 (u8 e 4) then some .order
  else none

/-- The first fault of one entry of a VARIANT table (R163). -/
def variantEntryFault (i : Nat) (e : Entry) : Option BadTable :=
  if !variantOk i e then some .range
  else if i = 1 ∧ 128 < (variantOf [[], e]).arcLength then some .exclusion
  else none

/-- A RANGE fault where a check fails. -/
def rangeFault (ok : Bool) : Option BadTable := if ok then none else some .range

/-- The first fault of one entry (R159, stage 3). -/
def entryFault (k : Kind) (table : List Entry) (i : Nat) : Option BadTable :=
  let e := table.getD i []
  match k with
  | .profile => profileEntryFault (headerSteps (table.getD 0 [])) i e
  | .limit => limitEntryFault e
  | .leak => rangeFault (leakOk i e)
  | .variant => variantEntryFault i e
  | .map => rangeFault (mapOk e)
  | .cell => rangeFault (cellOk i e)

/-- The first index below a count at which a test names a fault. -/
def firstFault (count : Nat) (f : Nat → Option BadTable) : Option (BadTable × Nat) :=
  (List.range count).findSome? (fun i => (f i).map (fun b => (b, i)))

/-! ## Structure checks (R159, stage 4) -/

/-- The LOOP check from step `i` on (R160): `open_` holds the steps of the REPEATs still open, the innermost first;
`left` is how many steps remain. The answer is the step at fault. -/
def loopFault (table : List Entry) : Nat → Nat → List Nat → Option Nat
  | 0, _, open_ => open_.head?
  | left + 1, i, open_ =>
    match profileStep table i with
    | some (.repeatLoop _) => if 4 ≤ open_.length then some i else loopFault table left (i + 1) (i :: open_)
    | some .endRepeat =>
      match open_ with
      | [] => some i
      | _ :: rest => loopFault table left (i + 1) rest
    | some .exitIfFailed => if open_.isEmpty then some i else loopFault table left (i + 1) open_
    | _ => loopFault table left (i + 1) open_

/-- A step is FINISH. -/
def isFinish (table : List Entry) (i : Nat) : Bool := profileStep table i == some .finish

/-- The FINISH check (R160). -/
def finishFault (table : List Entry) (steps : Nat) : Option Nat :=
  match (List.range (steps - 1)).find? (isFinish table) with
  | some i => some i
  | none => if isFinish table (steps - 1) then none else some (steps - 1)

/-- A step is LADDER. -/
def isLadder (table : List Entry) (i : Nat) : Bool :=
  match profileStep table i with
  | some (.ladder ..) => true
  | _ => false

/-- The LADDER check (R160). -/
def ladderFault (table : List Entry) (steps : Nat) : Option Nat :=
  if headerLadder (table.getD 0 []) then none else (List.range steps).find? (isLadder table)

/-- The torque check of a step, if it is a HOLD that carries one. -/
def checkOfStep (table : List Entry) (i : Nat) : Option TorqueCheck :=
  match profileStep table i with
  | some (.hold _ _ check) => check
  | _ => none

/-- The TORQUE_ID check (R160): the first HOLD whose id an earlier one carried with a different minimum, maximum or
grade. -/
def torqueFault (table : List Entry) (steps : Nat) : Option Nat :=
  (List.range steps).find? (fun i =>
    match checkOfStep table i with
    | some k => (List.range i).any (fun j =>
        match checkOfStep table j with
        | some k' => decide (k'.id = k.id ∧ k' ≠ k)
        | none => false)
    | none => false)

/-- The structure checks of a PROFILE table in their order; step i is entry i + 1. -/
def profileStructure (table : List Entry) : Option (BadTable × Nat) :=
  let steps := headerSteps (table.getD 0 [])
  match loopFault table steps 0 [] with
  | some i => some (.loop, i + 1)
  | none => match finishFault table steps with
    | some i => some (.finish, i + 1)
    | none => match ladderFault table steps with
      | some i => some (.ladder, i + 1)
      | none => (torqueFault table steps).map (fun i => (.torqueId, i + 1))

/-- The DUP_ID check of a LIMIT table (R161). -/
def limitStructure (table : List Entry) : Option (BadTable × Nat) :=
  ((List.range table.length).find? (fun i =>
    (List.range i).any (fun j => u8 (table.getD j []) 0 == u8 (table.getD i []) 0))).map (fun i => (.dupId, i))

/-- The structure checks of a kind. -/
def structureFault (k : Kind) (table : List Entry) : Option (BadTable × Nat) :=
  match k with
  | .profile => profileStructure table
  | .limit => limitStructure table
  | .leak | .variant | .map | .cell => none

/-! ## Validation (R159) -/

/-- Stage 1: every index below the entry count is written. -/
def completeness (entries : List (Option Entry)) (count : Nat) : Option (BadTable × Nat) :=
  firstFault count (fun i => if (entries.getD i none).isNone then some .count else none)

/-- Stage 2: the header of a PROFILE table, and the entry count it asks for. -/
def headerFault (k : Kind) (table : List Entry) (count : Nat) : Option (BadTable × Nat) :=
  match k with
  | .profile =>
    let h := table.getD 0 []
    if !headerOk h then some (.range, 0)
    else if count = 1 + headerSteps h + (if headerLadder h then 2 else 0) then none
    else some (.count, 0)
  | .limit | .leak | .variant | .map | .cell => none

/-- The first fault of a loaded slot, or none when its table is valid (R159). -/
def Slot.fault (x : Slot) (k : Kind) : Option (BadTable × Nat) :=
  match completeness x.entries x.entryCount with
  | some f => some f
  | none => match headerFault k x.table x.entryCount with
    | some f => some f
    | none => match firstFault x.entryCount (entryFault k x.table) with
      | some f => some f
      | none => structureFault k x.table

/-! ## Commands of the table store -/

/-- A slot that becomes EMPTY: it loses its entries and its entry count and keeps its generation (R152). -/
def Slot.emptied (x : Slot) : Slot := { x with state := .empty, entryCount := 0, entries := [] }

/-- A slot that begins a load (R155). -/
def Slot.opened (x : Slot) (count : Nat) : Slot :=
  { x with state := .loading, entryCount := count, entries := List.replicate count none }

/-- A slot number lies within the slots of a kind. -/
def Kind.hasSlot (k : Kind) (n : Nat) : Bool := decide (n < k.slots)

/-- An entry count lies within the range of a kind (spec/08, 8.1). -/
def Kind.takesCount (k : Kind) (n : Nat) : Bool := within k.counts.1 k.counts.2 n

/-- MAP and CELL concern the whole cell and stay as they are while any station is active (R155, R165, R166). -/
def Kind.cellWide (k : Kind) : Bool :=
  match k with
  | .map | .cell => true
  | .profile | .limit | .leak | .variant => false

/-- The tests that LOAD_BEGIN and CLEAR_TABLE share after their argument test (R155, R166). -/
def Part.slotRefusal (p : Part) (k : Kind) (n : Nat) : Option ReplyCode :=
  if (p.tables.slot k n).references ≠ 0 then some .inUse
  else if k.cellWide && p.anyActive then some .busy
  else none

/-- Emptying or reopening the MAP slot drops the router's entries and role records (R43, R155, R166). -/
def Part.dropMap (p : Part) (k : Kind) : Part := if k = .map then p.modRouter (fun _ => Router.reset) else p

/-- LOAD_ABANDONED's detail: kind code and slot number (R156). -/
def slotDetail (k : Kind) (n : Nat) : BitVec 16 := BitVec.ofNat 16 (256 * k.code + n)

/-- A load in progress on another slot is abandoned (R156). -/
def Part.abandonLoad (p : Part) (k : Kind) (n : Nat) : Part :=
  match p.tables.loading with
  | some (k', n') =>
    if k' = k ∧ n' = n then p
    else (p.modTables (fun t => t.setSlot k' n' (t.slot k' n').emptied)).raise .loadAbandoned (slotDetail k' n') 0
  | none => p

/-- LOAD_BEGIN, its arguments in range (R155, R156). -/
def Part.beginLoad (p : Part) (k : Kind) (n count : Nat) : Answer :=
  match p.slotRefusal k n with
  | some code => p.refuse code
  | none =>
    let p := p.abandonLoad k n
    let p := p.modTables (fun t => { t.setSlot k n ((t.slot k n).opened count) with loading := some (k, n) })
    (p.dropMap k).ok []

/-- LOAD_BEGIN (R155). -/
def Part.loadBegin (p : Part) (kind slot count : Byte) : Answer :=
  match kindOfCode kind.toNat with
  | some k =>
    if k.hasSlot slot.toNat && k.takesCount count.toNat then p.beginLoad k slot.toNat count.toNat else p.refuse .badArg
  | none => p.refuse .badArg

/-- LOAD_ENTRY (R157). -/
def Part.loadEntry (p : Part) (index : Nat) (content : Entry) : Answer :=
  match p.tables.loading with
  | none => p.refuse .sequence
  | some (k, n) =>
    let x := p.tables.slot k n
    if index < x.entryCount then
      (p.modTables (fun t => t.setSlot k n { x with entries := x.entries.set index (some content) })).ok []
    else p.refuse .badArg

/-- A slot whose table is valid becomes READY with the next generation (R153, R158). -/
def Slot.completed (x : Slot) : Slot := { x with state := .ready, generation := x.generation + 1 }

/-- The load ends in READY: a MAP table is taken by the router (R43, R158). -/
def Part.completeLoad (p : Part) (k : Kind) (n : Nat) : Answer :=
  let x := (p.tables.slot k n).completed
  let p := p.modTables (fun t => { t.setSlot k n x with loading := none })
  let p := if k = .map then p.modRouter (fun _ => routerOf x.table) else p
  p.ok (out16 x.generation ++ [b8 x.entryCount])

/-- The load fails its validation (R158): BAD_TABLE with the detail code and the entry index. -/
def Part.failLoad (p : Part) (k : Kind) (n : Nat) (fault : BadTable × Nat) : Answer :=
  { part := p.modTables (fun t => { t.setSlot k n (t.slot k n).emptied with loading := none })
    reply := .badTable, results := [b8 fault.1.code, b8 fault.2], second := none }

/-- LOAD_END (R158). -/
def Part.loadEnd (p : Part) : Answer :=
  match p.tables.loading with
  | none => p.refuse .sequence
  | some (k, n) =>
    if k.cellWide && p.anyActive then p.refuse .busy
    else match (p.tables.slot k n).fault k with
      | none => p.completeLoad k n
      | some f => p.failLoad k n f

/-- The load in progress after a slot is cleared (R166). -/
def loadingAfterClear (loading : Option (Kind × Nat)) (k : Kind) (n : Nat) : Option (Kind × Nat) :=
  if loading = some (k, n) then none else loading

/-- CLEAR_TABLE (R166). -/
def Part.clearTable (p : Part) (kind slot : Byte) : Answer :=
  match kindOfCode kind.toNat with
  | some k =>
    if k.hasSlot slot.toNat then
      match p.slotRefusal k slot.toNat with
      | some code => p.refuse code
      | none =>
        let p := p.modTables (fun t =>
          { t.setSlot k slot.toNat (t.slot k slot.toNat).emptied with loading := loadingAfterClear t.loading k slot.toNat })
        (p.dropMap k).ok []
    else p.refuse .badArg
  | none => p.refuse .badArg

/-- The written count of TABLE_STATUS (R167). -/
def Slot.writtenCount (x : Slot) : Nat :=
  match x.state with
  | .empty => 0
  | .loading => x.entries.countP (fun e => e.isSome)
  | .ready => x.entryCount

/-- TABLE_STATUS (R167). -/
def Part.tableStatus (p : Part) (kind slot : Byte) : Answer :=
  match kindOfCode kind.toNat with
  | some k =>
    if k.hasSlot slot.toNat then
      let x := p.tables.slot k slot.toNat
      p.ok ([b8 x.state.code] ++ out16 x.generation ++ [b8 x.references, b8 x.entryCount, b8 x.writtenCount])
    else p.refuse .badArg
  | none => p.refuse .badArg

end Sys2Proof.Machine
end

