-- ==== Sys2Proof/Machine/Commands.lean ====
section
/-!
DEFINITION. Chapters 9 and 10: the commands of the report store, IDENT, PART_RESET, and the command unit that takes
commands and places replies.
-/
namespace Sys2Proof.Machine

open Sys2Proof

/-! ## The report store's commands (R180 to R182, R198) -/

/-- The segment count of a record (R176). -/
def Report.segments (r : Report) : Nat := 7 + r.lines.length

/-- STORE_STATUS (R180). -/
def Part.storeStatus (p : Part) : Answer :=
  let oldest := match p.reports.held with
    | r :: _ => out16 r.number ++ [b8 r.segments]
    | [] => [0, 0, 0]
  p.ok ([b8 p.reports.held.length, b8 p.reports.reservations] ++ oldest)

/-- An OK FETCH_REPORT: two frames from one segment (R198). -/
def Part.serveSegment (p : Part) (r : Report) (index : Nat) : Answer :=
  let segment := (reportSegments r).getD index []
  { part := p, reply := .ok, results := out16 r.number ++ [b8 index] ++ segment.take 12
    second := some (out16 r.number ++ [b8 (index + 128)] ++ (segment.drop 12).take 4) }

/-- FETCH_REPORT (R181). -/
def Part.fetchReport (p : Part) (segment : Byte) : Answer :=
  match p.reports.held with
  | [] => p.refuse .empty
  | r :: _ => if segment.toNat < r.segments then p.serveSegment r segment.toNat else p.refuse .badArg

/-- RELEASE_REPORT (R182). A WRONG_REPORT carries the oldest number. -/
def Part.releaseReport (p : Part) (number : BitVec 16) : Answer :=
  match p.reports.held with
  | [] => p.refuse .empty
  | r :: rest =>
    if r.number = number then (p.modReports (fun x => { x with held := rest })).ok (out16 number)
    else { part := p, reply := .wrongReport, results := out16 r.number, second := none }

/-! ## IDENT (R189) -/

/-- IDENT: codes, counts, the ring address and the two flags. -/
def Part.ident (p : Part) : Answer :=
  p.ok [0x2A, 0x04, 0x01, 4, 16, 16, 8, 32, 1, 1, 12, p.port.address.setWidth 8,
    flagByte [p.tables.loading.isSome, p.anyActive]]

/-! ## PART_RESET (R190) -/

/-- An executor after PART_RESET: reset values, the last sign and the zero run kept (R84). -/
def Executor.partReset (e : Executor) : Executor := { Executor.reset with lastSign := e.lastSign, zeroRun := e.zeroRun }

/-- The manifold arbiter after PART_RESET: one VALVE_CMD is owed (R151). -/
def Manifold.partReset : Manifold := { Manifold.reset with closingOwed := true }

/-- The reset of scope RUN (R23, R190). -/
def Part.resetRun (p : Part) : Part :=
  { p with
    tracker := Four.all Tracker.reset
    profile := ⟨p.profile.s0.partReset, p.profile.s1.partReset, p.profile.s2.partReset, p.profile.s3.partReset⟩
    collector := Four.all Collector.reset, leak := Four.all Sequencer.reset, station := Four.all Station.reset
    engine := Engine.reset, manifold := Manifold.partReset
    reports := { held := [], reservations := 0, nextNumber := p.reports.nextNumber }
    alerts := List.replicate 24 Alert.reset, capture := none }

/-- The reset of scope ALL (R190): scope RUN, and the tables, the map and the report number too. -/
def Part.resetAll (p : Part) : Part :=
  { p.resetRun with tables := Tables.reset, router := Router.reset, reports := ReportStore.reset }

/-- PART_RESET (R190). -/
def Part.partReset (p : Part) (scope : Byte) : Answer :=
  if scope ≠ 1 ∧ scope ≠ 2 then p.refuse .badArg
  else if p.anyActive then p.refuse .busy
  else if scope = 1 then p.resetRun.ok []
  else p.resetAll.ok []

/-! ## Handing a command to its owner (R187; spec/11, 11.2) -/

/-- The command codes 0x01 to 0x0D. -/
def Part.plainCommand (p : Part) (code : Nat) (args : List Byte) : Answer :=
  match code with
  | 0x01 => p.ident
  | 0x02 => p.loadBegin (byteAt args 0) (byteAt args 1) (byteAt args 2)
  | 0x03 => p.loadEnd
  | 0x04 => p.clearTable (byteAt args 0) (byteAt args 1)
  | 0x05 => p.tableStatus (byteAt args 0) (byteAt args 1)
  | 0x06 => p.abort (byteAt args 0) (byteAt args 1)
  | 0x07 => p.clearStation (byteAt args 0)
  | 0x08 => p.snapshot (byteAt args 0)
  | 0x09 => p.snapshotRead
  | 0x0A => p.storeStatus
  | 0x0B => p.fetchReport (byteAt args 0)
  | 0x0C => p.releaseReport (be16 args 0)
  | 0x0D => p.partReset (byteAt args 0)
  | _ => p.refuse .unknown

/-- The station that a START_AXLE code carries in bits 5 and 6. -/
def startStation (code : Byte) : Stn := Fin.ofNat 4 (code.toNat / 32)

/-- The variant slot that a START_AXLE code carries in bits 0 to 4. -/
def startSlot (code : Byte) : BitVec 5 := code.setWidth 5

/-- A command handed to the block that owns it: LOAD_ENTRY and START_AXLE carry arguments in their code. -/
def Part.perform (p : Part) (c : Command) : Answer :=
  if 0x80 ≤ c.code.toNat then p.startAxle (startStation c.code) (startSlot c.code) c.args
  else if 0x20 ≤ c.code.toNat then p.loadEntry (c.code.toNat - 0x20) c.args
  else p.plainCommand c.code.toNat c.args

/-! ## The command unit (R185, R186) -/

/-- The reply to a command: its code and tag unchanged, and 15 result bytes (R187). -/
def Answer.replyTo (a : Answer) (c : Command) : Reply :=
  { code := c.code, tag := c.tag, reply := a.reply, results := padTo 15 a.results, second := a.second.map (padTo 15) }

/-- The answer is placed in the reply queue (R186). -/
def Answer.place (a : Answer) (c : Command) : Part :=
  a.part.modCommands (fun u => { u with reply := some (a.replyTo c) })

/-- A command is taken: its effect whole, then its reply in the reply queue (R186). -/
def Part.takeCommand (p : Part) (c : Command) : Part := (p.perform c).place c

/-- A command frame joins the tail of the command queue (R185). -/
def Part.enqueue (p : Part) (c : Command) : Part :=
  p.modCommands (fun u => { u with queue := u.queue ++ [c] })

/-- CMD_OVERFLOW's detail: code and tag of the dropped frame (R185). -/
def overflowDetail (c : Command) : BitVec 16 := c.code ++ c.tag

/-- A command frame reaches the command unit (R185). -/
def Part.commandArrives (p : Part) (c : Command) : Part :=
  if p.commands.queue.isEmpty && p.commands.reply.isNone then p.takeCommand c
  else if p.commands.queue.length < 4 then p.enqueue c
  else p.raise .cmdOverflow (overflowDetail c) 0

/-- The oldest queued command is taken at once after a filling that took the waiting reply (R186). -/
def Part.takeNext (p : Part) : Part :=
  match p.commands.queue with
  | c :: rest => (p.modCommands (fun u => { u with queue := rest })).takeCommand c
  | [] => p

end Sys2Proof.Machine
end

