-- ==== Sys2Proof/Machine/Ring.lean ====
section
/-!
DEFINITION. Chapter 2, sections 2.1 to 2.3: the ring port. Forwarding, the tests of a frame, the cycle closes, the
insertion list, ring loss and restore, and the part's own time reference.
-/
namespace Sys2Proof.Machine

open Sys2Proof

/-! ## Forwarding (R24) -/

/-- A frame leaves on the ring. -/
def Part.emit (p : Part) (pass : Pass) (f : Frame) : Part := { p with ringOut := p.ringOut ++ [(pass, f)] }

/-- The outbound pass has ended: the insertion list follows the frames that arrived from the preceding node, and is
emptied (R24, R31). -/
def Part.append (p : Part) : Part :=
  { p with
    ringOut := p.ringOut ++ p.port.insertion.map (fun f => (Pass.outbound, f))
    port := { p.port with insertion := [] } }

/-- A frame that shows that the outbound pass before it has ended: one on the return pass, or the CYCLE frame that
leads the next outbound pass (log entry 7). -/
def endsPass (pass : Pass) (f : Frame) : Bool :=
  match pass with
  | .returning => true
  | .outbound => frameKind f == kindCycle

/-- Every received frame is forwarded unchanged (R24). While the reset line is held nothing is appended. -/
def Part.forward (p : Part) (pass : Pass) (f : Frame) : Part :=
  (if endsPass pass f && !p.resetHeld then p.append else p).emit pass f

/-! ## The tests of a frame (R25 to R28) -/

/-- The part takes part in the ring: the reset line is released and the address is 1 to 62 (R24, R25). -/
def Part.listening (p : Part) : Bool :=
  !p.resetHeld && decide (p.port.address ≠ 0) && decide (p.port.address ≠ 63)

/-- A good CYCLE frame (R27). -/
def goodCycle (f : Frame) : Bool :=
  checkSound f && decide (frameKind f = kindCycle) && decide (frameSource f = 0)
    && decide (frameTag f = tagOf (cycleNumber f))

/-- The tag of a frame is that of the open cycle (R28). -/
def Port.current (x : Port) (f : Frame) : Bool :=
  match x.cycle with
  | some n => decide (frameTag f = tagOf n)
  | none => false

/-- A good frame other than CYCLE: read on the return pass, not the AT4's own, sound and current, while the ring is UP
(R24, R26, R28). -/
def Part.good (p : Part) (pass : Pass) (f : Frame) : Bool :=
  p.listening && decide (pass = .returning) && decide (frameKind f ≠ kindCycle)
    && decide (frameSource f ≠ p.port.address) && checkSound f && p.port.up && p.port.current f

/-! ## The frames that are read (R29) -/

/-- A good frame of a sample kind through the router, and the entry that took it (R35, R37). -/
def Part.intake (p : Part) (f : Frame) (x : Sample) : Part × Option MapEntry :=
  let r := p.router.take x (frameSource f)
  (p.modRouter (fun _ => r.1), r.2)

/-- The stations whose sequencer is in FILL or VENT. -/
def Part.airStations (p : Part) : List Stn := allStations.filter (fun st => p.filling st || p.venting st)

/-- VALVE_FAULT halts each station whose sequencer is in FILL or VENT when the fault arrives (R16, R42). -/
def Part.valveFault (p : Part) (order : List Stn) : Part :=
  let named := p.airStations
  (stationOrder order).foldl (fun p st => if st ∈ named then p.halt st .valveFault else p) p

/-- What a frame reports at its arrival to the block of the role it was taken for: PRESS ends a fill at the target
(R129), DRIVE and VALVE_STATUS report their faults (R41, R42). -/
def Part.arrivalReport (p : Part) (e : MapEntry) (x : Sample) (order : List Stn) : Part :=
  match x, e.owner with
  | .press pa fault, some st => if fault then p else p.fillReached st pa.toNat
  | .drive _ _ fault, some st => if fault then p.halt st .driveFault else p
  | .valve fault _, none => if fault then p.valveFault order else p
  | _, _ => p

/-- A good frame of a sample kind (R29, R35, R37). -/
def Part.sampleArrives (p : Part) (f : Frame) (x : Sample) (order : List Stn) : Part :=
  let r := p.intake f x
  match r.2 with
  | some e => r.1.arrivalReport e x order
  | none => r.1

/-- The command that a COMMAND frame carries (spec/11, 11.1). -/
def commandOf (f : Frame) : Command := { code := byteAt f 4, tag := byteAt f 5, args := (f.drop 6).take 16 }

/-- A COMMAND frame for the AT4 from the ring master (R29). -/
def Part.ownCommand (p : Part) (f : Frame) : Bool :=
  decide (frameKind f = kindCommand) && decide (frameDest f = p.port.address) && decide (frameSource f = 0)

/-- A good frame goes to the block that reads its kind; other kinds are not used (R29). -/
def Part.deliver (p : Part) (f : Frame) (order : List Stn) : Part :=
  match sampleOf f with
  | some x => p.sampleArrives f x order
  | none => if p.ownCommand f then p.commandArrives (commandOf f) else p

/-- A frame other than CYCLE arrives: it is forwarded, and read when it is good. -/
def Part.receive (p : Part) (pass : Pass) (f : Frame) (order : List Stn) : Part :=
  let p := p.forward pass f
  if p.good pass f then p.deliver f order else p

/-! ## A cycle close (R30) -/

/-- One block's work at a close. `pre` is the part after the role values are formed and before any block's work. -/
def Part.doWork (pre p : Part) (w : Work) : Part :=
  match w with
  | .silence st => p.silenceWork st
  | .tracker st => p.trackerWork st
  | .profile st => Part.profileWork pre p st
  | .control st => Part.controlWork pre p st
  | .collector st => Part.collectorWork pre p st
  | .leak st => Part.leakWork pre p st
  | .purge => p.purgeWork

/-- The works of every close in the default order. -/
def defaultOrder : List Work :=
  allStations.map .silence ++ allStations.map .tracker ++ allStations.map .profile ++ allStations.map .control
    ++ allStations.map .collector ++ allStations.map .leak ++ [.purge]

/-- One work comes before another in an order. -/
def before (order : List Work) (a b : Work) : Bool := order.idxOf a < order.idxOf b

/-- An order that the spec allows: each work once, the tracker before the blocks that read it (R10, R15, R56), and the
executor before the controller that begins its step 0 (R7, R59) and reads its setpoint (R61). -/
def legalOrder (order : List Work) : Bool :=
  defaultOrder.all (fun w => order.count w == 1) && order.length == defaultOrder.length &&
    allStations.all (fun st => before order (.tracker st) (.control st) && before order (.tracker st) (.collector st)
      && before order (.profile st) (.control st))

/-- An operand order: an empty one is the default. -/
def orderOr (order : List Work) : List Work := if order.isEmpty then defaultOrder else order

/-- The setpoints become those in force for the cycle being closed (R61). -/
def Executor.latch (e : Executor) : Executor := { e with inForce := e.setpoint }

/-- The values of the close are formed: role values (R38) and setpoints in force (R61). -/
def Part.formClose (p : Part) : Part :=
  { p with
    router := p.router.formValues
    profile := ⟨p.profile.s0.latch, p.profile.s1.latch, p.profile.s2.latch, p.profile.s3.latch⟩ }

/-- A ring cycle closes (R30): values are formed and every block does its work on them. -/
def Part.closeCycle (p : Part) (order : List Work) : Part :=
  let pre := p.formClose
  ((orderOr order).foldl (Part.doWork pre) pre).modRouter Router.clearSilent

/-- A cycle is open. -/
def Part.openCycle (p : Part) (n : BitVec 32) : Part := p.modPort (fun x => { x with cycle := some n })

/-- The skipped cycles after `o` are closed in turn as cycles in which no frame was read (R27). -/
def Part.closeSkipped : Nat → BitVec 32 → List (List Work) → Part → Part
  | 0, _, _, p => p
  | n + 1, o, orders, p =>
    Part.closeSkipped n (o + 1) (orders.drop 1) ((p.openCycle (o + 1)).closeCycle (orders.headD []))

/-! ## The insertion list (R31) -/

/-- The base of the lowest-numbered map entry of an owner and role. -/
def Part.baseOf (p : Part) (owner : Option Stn) (role : Role) : Option Addr :=
  (p.router.entries.find? (fun c => c.entry.owner = owner ∧ c.entry.role = role)).map (fun c => c.entry.base)

/-- The destination of a SETPOINT or VALVE_CMD frame (R31). -/
def Part.destination (p : Part) (owner : Option Stn) (role : Role) : Addr :=
  match (p.roleRecord owner role).bind RoleRecord.source with
  | some a => a
  | none => (p.baseOf owner role).getD 63

/-- A frame of the AT4: its address as source and the open cycle's tag (R31). -/
def Part.ownFrame (p : Part) (kind : Byte) (dest : Addr) (payload : List Byte) : Frame :=
  mkFrame kind p.port.address dest (tagOf p.cycleNow) payload

/-- The payload of a station's SETPOINT frame, none in IDLE (R11, R83). -/
def Part.setpointPayload (p : Part) (st : Stn) : Option (List Byte) :=
  let e := p.profile.get st
  match (p.station.get st).state with
  | .idle => none
  | .prep => some (z24 0 ++ n16 0 ++ [flagByte [false, false], 0])
  | .running | .finishing | .stopping =>
    some (z24 (e.setpoint.tdiv 64) ++ n16 e.torqueLimit ++ [flagByte [true, false], b8 e.step])
  | .halted => some (z24 0 ++ n16 0 ++ [flagByte [false, true], b8 e.step])

/-- A station's SETPOINT frame (R11, R31, R83). -/
def Part.setpointFrame (p : Part) (st : Stn) : Option Frame :=
  (p.setpointPayload st).map (p.ownFrame kindSetpoint (p.destination (some st) .drive))

/-- The manifold arbiter asks for a VALVE_CMD frame (R148). -/
def Part.wantsValveCmd (p : Part) : Bool := p.anyValveOpen || p.manifold.closingOwed

/-- The valve states of a VALVE_CMD frame (R148; spec/11, 11.1). -/
def Part.valvePayload (p : Part) : List Byte :=
  [flagByte [p.manifold.holder.isSome, p.manifold.purging],
    flagByte (allStations.map p.filling ++ allStations.map p.venting)]

/-- The VALVE_CMD frame. -/
def Part.valveFrame (p : Part) : Frame := p.ownFrame kindValveCmd (p.destination none .valve) p.valvePayload

/-- The REPLY frames of a reply: one, or two for an OK FETCH_REPORT (R31, R198). -/
def Part.replyFrames (p : Part) (r : Reply) : List Frame :=
  let frame (results : List Byte) := p.ownFrame kindReply 0 ([r.code, r.tag, b8 r.reply.code] ++ results)
  match r.second with
  | some results => [frame r.results, frame results]
  | none => [frame r.results]

/-- The ALERT frame of a source number (R192, R194). -/
def Part.alertFrame (p : Part) (n : Nat) : Frame :=
  let a := p.alertAt n
  p.ownFrame kindAlert 0 ([b8 n, sourceStation n] ++ out16 a.detail ++ out16 a.report)

/-- The frames that a filling takes, in the order of R31. -/
def Part.insertionFrames (p : Part) : List Frame :=
  allStations.filterMap p.setpointFrame
    ++ (if p.wantsValveCmd then [p.valveFrame] else [])
    ++ (match p.commands.reply with
      | some r => p.replyFrames r
      | none => [])
    ++ (match p.alertChoice with
      | some n => [p.alertFrame n]
      | none => [])

/-- Sending clears the pending flag of the source chosen (R194). -/
def Part.alertSent (p : Part) : Part :=
  match p.alertChoice with
  | some n => { p with alerts := p.alerts.set n { p.alertAt n with pending := false } }
  | none => p

/-- The insertion list is filled (R31), and what is taken from its source leaves it: the closing owed flag is cleared
(R148), the reply leaves the reply queue, the alert source is no longer pending (R194). -/
def Part.fill (p : Part) : Part :=
  let frames := p.insertionFrames
  let p := p.alertSent
  let p := p.modManifold (fun m => { m with closingOwed := false })
  let p := p.modCommands (fun u => { u with reply := none })
  p.modPort (fun x => { x with insertion := frames })

/-- A filling and what follows it: when it took the waiting reply, the oldest queued command is taken (R186). -/
def Part.fillAndTake (p : Part) : Part :=
  if p.commands.reply.isSome then p.fill.takeNext else p.fill

/-! ## The arrival of a good CYCLE frame (R27, R33) -/

/-- The ring is restored: UP, the cycle open, RING_RESTORED with the whole milliseconds from the loss start (R33). -/
def Part.restore (p : Part) (c : BitVec 32) : Part :=
  let ms := min ((p.clock - p.port.lossStart) / 1000) 65535
  let p := p.modPort (fun x => { x with up := true, cycle := some c, lossTimer := 0 })
  (p.raise .ringRestored (BitVec.ofNat 16 ms) 0).fillAndTake

/-- The difference d of R27 while the ring is UP with cycle `o` open. -/
def Part.advance (p : Part) (o c : BitVec 32) (orders : List (List Work)) : Part :=
  let d := (c - o).toNat
  if d = 0 then p
  else
    let p := p.closeCycle (orders.headD [])
    let p := if d ≤ 20 then Part.closeSkipped (d - 1) o (orders.drop 1) p else p
    (p.openCycle c).fillAndTake

/-- A good CYCLE frame: it restarts the loss timer and acts by the ring state and the open cycle (R27, R33). -/
def Part.cycleArrives (p : Part) (c : BitVec 32) (orders : List (List Work)) : Part :=
  if p.port.up then
    let p := p.modPort (fun x => { x with lossTimer := 0 })
    match p.port.cycle with
    | some o => p.advance o c orders
    | none => p
  else p.restore c

/-! ## Ring loss (R32, R188) -/

/-- The ring becomes LOST: the active stations halt, each as R17 gives, while the open cycle's number is still that of
the discarded cycle (log entry 8); then no cycle is open, the frames of the cycle are dropped, and the command queue, the
reply queue and the insertion list are emptied. The loss timer holds 0 while the ring is LOST (DESIGN CHOICE, log entry 6). -/
def Part.ringLost (p : Part) (order : List Stn) : Part :=
  let p := (stationOrder order).foldl (fun p st => p.halt st .ringLost) p
  let p := p.modRouter Router.clearSeen
  let p := p.modCommands (fun _ => { queue := [], reply := none })
  let now := p.clock
  p.modPort (fun x => { x with up := false, cycle := none, lossTimer := 0, lossStart := now, insertion := [] })

/-! ## The part's own time reference (R32, R109; log entry 6) -/

/-- Time passes with nothing falling due. -/
def Part.passTime (p : Part) (us : Nat) : Part :=
  { p with
    clock := p.clock + us
    port := { p.port with lossTimer := if p.port.up then p.port.lossTimer + us else p.port.lossTimer }
    engine := { p.engine with evaluation := p.engine.evaluation.map (fun e => { e with age := e.age + us }) } }

/-- What falls due on the part's own time reference. -/
inductive Due where
  | evaluation | loss
  deriving DecidableEq, Repr

/-- The next thing to fall due, and how long it is until then: an evaluation ends by 1 ms after it began (R109), and
the ring is LOST 1 ms after the last good CYCLE frame (R32). -/
def Part.nextDue (p : Part) : Option (Nat × Due) :=
  let evaluation := p.engine.evaluation.map (fun e => 1000 - e.age)
  let loss := if p.port.up then some (1000 - p.port.lossTimer) else none
  match evaluation, loss with
  | some a, some b => if a ≤ b then some (a, .evaluation) else some (b, .loss)
  | some a, none => some (a, .evaluation)
  | none, some b => some (b, .loss)
  | none, none => none

/-- What fell due happens. -/
def Part.fire (p : Part) (x : Due) : Part :=
  match x with
  | .evaluation => p.evaluationEnd
  | .loss => p.ringLost []

/-- What fell due `d` microseconds on happens within `us`: an evaluation ends by then (R109), and the loss, which a CYCLE
frame of the same microsecond forestalls (R32), before then. R32 and R109 do not say which of these comes first where they fall
together: DESIGN CHOICE (log entry 6). -/
def Due.within (x : Due) (d us : Nat) : Bool :=
  match x with
  | .evaluation => decide (d ≤ us)
  | .loss => decide (d < us)

/-- Time passes: what falls due in it happens at its moment. An evaluation that falls due together with the loss ends first
(R111 gives no order; log entry 6). `n` bounds the number of events: each evaluation and the loss ends once. -/
def Part.elapseWithin : Nat → Nat → Part → Part
  | 0, us, p => p.passTime us
  | n + 1, us, p =>
    match p.nextDue with
    | some (d, x) => if x.within d us then Part.elapseWithin n (us - d) ((p.passTime d).fire x) else p.passTime us
    | none => p.passTime us

/-- Time passes on the part's own reference; while the reset line is held nothing runs (R196). -/
def Part.elapse (p : Part) (us : Nat) : Part :=
  if p.resetHeld then p else Part.elapseWithin (p.engine.queue.length + 6) us p

/-- CYCLE_FRAME: time passes, the frame is forwarded, and a good one on the outbound pass is taken (R24, R27). -/
def Part.cycleFrame (p : Part) (pass : Pass) (f : Frame) (elapsed : Nat) (orders : List (List Work)) : Part :=
  let p := (p.elapse elapsed).forward pass f
  if p.listening && decide (pass = .outbound) && goodCycle f then p.cycleArrives (cycleNumber f) orders else p

/-- RING_LOSS: the loss timer reaches 1 ms (R32). An evaluation that falls due by that moment has ended before the loss
(DESIGN CHOICE: R111 leaves the order open; log entry 6). -/
def Part.ringLoss (p : Part) (order : List Stn) : Part :=
  if p.resetHeld || !p.port.up then p
  else
    let p := p.elapse (1000 - p.port.lossTimer)
    p.ringLost order

end Sys2Proof.Machine
end

