-- ==== Sys2Proof/WellFormed.lean ====
section
/-!
DEFINITION. The operands that the ring and the part can present to a command. A command that fails its test is refused
`illFormed` (log entry 16).
-/
namespace Sys2Proof

open Sys2Proof.Machine

/-- A frame is 24 bytes long (spec/11, 11.1). -/
def frameFits (f : Frame) : Bool := f.length == 24

/-- A frame of one kind. -/
def frameOf (k : Byte) (f : Frame) : Bool := frameFits f && frameKind f == k

/-- A frame of a kind that SAMPLE_FRAME carries (R37). -/
def sampleKind (f : Frame) : Bool := frameKind f == kindVib || frameKind f == kindTach || frameKind f == kindTemp

/-- A frame of a kind that the channel router reads (R29). -/
def routedKind (f : Frame) : Bool := (sampleOf f).isSome

/-- A serial or an entry is 16 bytes long (spec/11, 11.2). -/
def entryFits (e : Entry) : Bool := e.length == 16

/-- An order of stations names none twice. -/
def orderFits (order : List Stn) : Bool := decide order.Nodup

/-- An order of a close's works is the default one or a legal one. -/
def worksFit (order : List Work) : Bool := order.isEmpty || legalOrder order

/-- A command code that names no command (spec/11, 11.2). -/
def unknownCode (code : Byte) : Bool := code == 0 || (decide (0x0E ≤ code.toNat) && decide (code.toNat ≤ 0x1F))

/-- The operands of a command are ones that the ring or the part can present. -/
def Instr.wellFormed (i : Instr) : Bool :=
  match i with
  | .powerOn _ => true
  | .resetLineAssert => true
  | .resetLineRelease _ => true
  | .cycleFrame _ f _ orders => frameOf kindCycle f && orders.all worksFit
  | .ringLoss order => orderFits order
  | .commandFrame _ f => frameOf kindCommand f
  | .unusedFrame _ f => frameFits f && frameKind f != kindCycle && !routedKind f
  | .sampleFrame _ f => frameFits f && sampleKind f
  | .pressFrame _ f => frameOf kindPress f
  | .driveFrame _ f => frameOf kindDrive f
  | .valveStatusFrame _ f order => frameOf kindValveStatus f && orderFits order
  | .signalLoss owner role order => (owner.isNone == (role == .valve)) && orderFits order
  | .indexTimerExpiry _ => true
  | .speedGateComplete _ => true
  | .stillGatesExpiry _ => true
  | .prepToRunning _ => true
  | .prepTimeout _ => true
  | .finishingEnd _ => true
  | .stoppingEnd _ => true
  | .reversalDwellEnd _ => true
  | .holdEnd _ => true
  | .rungDwellDone _ => true
  | .rungMeasureDone _ => true
  | .noiseStepEnd _ => true
  | .leakSequenceStart _ => true
  | .waitLeakEnd _ => true
  | .collectorSettleEnd _ => true
  | .windowStart _ => true
  | .windowComplete _ => true
  | .windowOvertime _ => true
  | .analysisTake => true
  | .evaluationEnd => true
  | .manifoldGrant => true
  | .manifoldTimeout _ => true
  | .fillTimeout _ => true
  | .purgeEnd => true
  | .leakSettleEnd _ => true
  | .measureComplete _ => true
  | .ventEnd _ => true
  | .deferredRelease => true
  | .startAxle _ _ _ serial => entryFits serial
  | .abort _ _ _ => true
  | .clearStation _ _ => true
  | .snapshot _ _ => true
  | .snapshotRead _ => true
  | .loadBegin _ _ _ _ => true
  | .loadEntry _ _ content => entryFits content
  | .loadEnd _ => true
  | .clearTable _ _ _ => true
  | .tableStatus _ _ _ => true
  | .storeStatus _ => true
  | .fetchReport _ _ => true
  | .releaseReport _ _ => true
  | .ident _ => true
  | .partReset _ _ => true
  | .unknownCommand _ code => unknownCode code

end Sys2Proof
end

