-- ==== Sys2Proof/Machine/Rows.lean ====
section
/-!
DEFINITION. The meanings of the rows of spec/opcode_table.json, one definition for each: the row's effect on the
part, in a next state that keeps the queue of waiting commands.
-/
namespace Sys2Proof.Machine

open Sys2Proof

/-- The outcome of a row. -/
abbrev Result := Host.Outcome State Fault Refusal

/-! ## Guards -/

/-- The part takes part in the ring and the ring is UP: cycles close and commands are taken (R24, R25, R28, R188). -/
def Part.online (p : Part) : Bool := p.listening && p.port.up

/-- An event of a cycle close. While the ring is LOST no cycle closes (R32). -/
def Part.atClose (p : Part) (f : Part → Part) : Part := if p.online then f p else p

/-- An event that needs no ring cycle: nothing happens only while the reset line is held. -/
def Part.atOnce (p : Part) (f : Part → Part) : Part := if p.resetHeld then p else f p

/-- A command of the cell controller arrives at the command unit; while the ring is LOST, the reset line held or the
address one that only forwards, none does (R25, R188; log entry 17). -/
def Part.atCommand (p : Part) (code tag : Byte) (args : List Byte) : Part :=
  if p.online then p.commandArrives { code := code, tag := tag, args := padTo 16 args } else p

/-- The next state with a new part: the waiting commands stay. -/
def State.become (s : State) (p : Part) : Result := .next { s with part := p }

/-- A row whose operands are well-formed has its effect; other operands are refused (log entry 16). -/
def State.take (s : State) (i : Instr) (p : Part) : Result :=
  if i.wellFormed then s.become p else .refused .illFormed

/-! ## Power and reset (R24, R25, R196) -/

/-- POWER_ON (R196): every block takes its power-on values, the straps are read (R25) and the ring is LOST (R34). The level
of the reset line is an input and stays (log entry 15). -/
def execPowerOn (straps : Addr) (s : State) : Result :=
  s.become { Part.powerOn straps with resetHeld := s.part.resetHeld }

/-- RESET_LINE_ASSERT (R24): from now on the port forwards and reads no frame. -/
def execResetLineAssert (s : State) : Result :=
  s.become { s.part with resetHeld := true }

/-- RESET_LINE_RELEASE (R196): every block takes its power-on values and the straps are read again (R25). -/
def execResetLineRelease (straps : Addr) (s : State) : Result :=
  s.become (Part.powerOn straps)

/-! ## Frames and the ring (R24 to R42) -/

/-- CYCLE_FRAME (R27, R30, R33). -/
def execCycleFrame (pass : Pass) (frame : Frame) (elapsed : Nat) (orders : List (List Work)) (s : State) : Result :=
  s.take (.cycleFrame pass frame elapsed orders) (s.part.cycleFrame pass frame elapsed orders)

/-- RING_LOSS (R32). -/
def execRingLoss (order : List Stn) (s : State) : Result :=
  s.take (.ringLoss order) (s.part.ringLoss order)

/-- COMMAND_FRAME (R29, R185). -/
def execCommandFrame (pass : Pass) (frame : Frame) (s : State) : Result :=
  s.take (.commandFrame pass frame) (s.part.receive pass frame [])

/-- UNUSED_FRAME (R29): forwarded and not used. -/
def execUnusedFrame (pass : Pass) (frame : Frame) (s : State) : Result :=
  s.take (.unusedFrame pass frame) (s.part.receive pass frame [])

/-- SAMPLE_FRAME (R35, R37). -/
def execSampleFrame (pass : Pass) (frame : Frame) (s : State) : Result :=
  s.take (.sampleFrame pass frame) (s.part.receive pass frame [])

/-- PRESS_FRAME (R37, R129). -/
def execPressFrame (pass : Pass) (frame : Frame) (s : State) : Result :=
  s.take (.pressFrame pass frame) (s.part.receive pass frame [])

/-- DRIVE_FRAME (R37, R41). -/
def execDriveFrame (pass : Pass) (frame : Frame) (s : State) : Result :=
  s.take (.driveFrame pass frame) (s.part.receive pass frame [])

/-- VALVE_STATUS_FRAME (R37, R42). -/
def execValveStatusFrame (pass : Pass) (frame : Frame) (order : List Stn) (s : State) : Result :=
  s.take (.valveStatusFrame pass frame order) (s.part.receive pass frame order)

/-- SIGNAL_LOSS (R40). -/
def execSignalLoss (owner : Option Stn) (role : Role) (order : List Stn) (s : State) : Result :=
  s.take (.signalLoss owner role order) (s.part.atClose (fun p => p.signalLoss owner role order))

/-! ## Events of a station at a cycle close -/

/-- INDEX_TIMER_EXPIRY (R52). -/
def execIndexTimerExpiry (st : Stn) (s : State) : Result :=
  s.become (s.part.atClose (fun p => p.indexTimerExpiry st))

/-- SPEED_GATE_COMPLETE (R53 to R55). -/
def execSpeedGateComplete (st : Stn) (s : State) : Result :=
  s.become (s.part.atClose (fun p => p.speedGateComplete st))

/-- STILL_GATES_EXPIRY (R54). -/
def execStillGatesExpiry (st : Stn) (s : State) : Result :=
  s.become (s.part.atClose (fun p => p.stillGatesExpiry st))

/-- PREP_TO_RUNNING (R7, R58). -/
def execPrepToRunning (st : Stn) (s : State) : Result :=
  s.become (s.part.atClose (fun p => p.prepToRunning st))

/-- PREP_TIMEOUT (R8). -/
def execPrepTimeout (st : Stn) (s : State) : Result :=
  s.become (s.part.atClose (fun p => p.prepTimeout st))

/-- FINISHING_END (R10). -/
def execFinishingEnd (st : Stn) (s : State) : Result :=
  s.become (s.part.atClose (fun p => Part.finishingEnd p p st))

/-- STOPPING_END (R15). -/
def execStoppingEnd (st : Stn) (s : State) : Result :=
  s.become (s.part.atClose (fun p => Part.stoppingEnd p p st))

/-- REVERSAL_DWELL_END (R64). -/
def execReversalDwellEnd (st : Stn) (s : State) : Result :=
  s.become (s.part.atClose (fun p => p.reversalDwellEnd st))

/-- HOLD_END (R66, R67). -/
def execHoldEnd (st : Stn) (s : State) : Result :=
  s.become (s.part.atClose (fun p => p.holdEnd st))

/-- RUNG_DWELL_DONE (R70, R71). -/
def execRungDwellDone (st : Stn) (s : State) : Result :=
  s.become (s.part.atClose (fun p => p.rungDwellDone st))

/-- RUNG_MEASURE_DONE (R70, R71). -/
def execRungMeasureDone (st : Stn) (s : State) : Result :=
  s.become (s.part.atClose (fun p => p.rungMeasureDone st (p.collector.get st).report))

/-- NOISE_STEP_END (R72). -/
def execNoiseStepEnd (st : Stn) (s : State) : Result :=
  s.become (s.part.atClose (fun p => p.noiseStepEnd st (p.collector.get st).report))

/-- LEAK_SEQUENCE_START (R73, R124). -/
def execLeakSequenceStart (st : Stn) (s : State) : Result :=
  s.become (s.part.atClose (fun p => p.leakSequenceStart st (p.leak.get st).phase))

/-- WAIT_LEAK_END (R73, R74). -/
def execWaitLeakEnd (st : Stn) (s : State) : Result :=
  s.become (s.part.atClose (fun p => p.waitLeakEnd st (p.leak.get st).phase))

/-- COLLECTOR_SETTLE_END (R86). -/
def execCollectorSettleEnd (st : Stn) (s : State) : Result :=
  s.become (s.part.atClose (fun p => p.collectorSettleEnd st))

/-- WINDOW_START (R87 to R89). -/
def execWindowStart (st : Stn) (s : State) : Result :=
  s.become (s.part.atClose (fun p => p.windowStart st))

/-- WINDOW_COMPLETE (R95, R96, R99). -/
def execWindowComplete (st : Stn) (s : State) : Result :=
  s.become (s.part.atClose (fun p => p.windowComplete st))

/-- WINDOW_OVERTIME (R96, R98). -/
def execWindowOvertime (st : Stn) (s : State) : Result :=
  s.become (s.part.atClose (fun p => p.windowOvertime st))

/-! ## The engine, the leak sequencers and the manifold -/

/-- ANALYSIS_TAKE (R108). -/
def execAnalysisTake (s : State) : Result :=
  s.become (s.part.atOnce (fun p => p.analysisTake))

/-- EVALUATION_END (R109, R111). -/
def execEvaluationEnd (s : State) : Result :=
  s.become (s.part.atOnce (fun p => p.evaluationEnd))

/-- MANIFOLD_GRANT (R127). -/
def execManifoldGrant (s : State) : Result :=
  s.become (s.part.atOnce (fun p => p.grantTest))

/-- MANIFOLD_TIMEOUT (R125). -/
def execManifoldTimeout (st : Stn) (s : State) : Result :=
  s.become (s.part.atClose (fun p => p.manifoldTimeout st))

/-- FILL_TIMEOUT (R131). -/
def execFillTimeout (st : Stn) (s : State) : Result :=
  s.become (s.part.atClose (fun p => p.fillTimeout st))

/-- PURGE_END (R132). -/
def execPurgeEnd (s : State) : Result :=
  s.become (s.part.atClose (fun p => p.purgeEnd))

/-- LEAK_SETTLE_END (R133). -/
def execLeakSettleEnd (st : Stn) (s : State) : Result :=
  s.become (s.part.atClose (fun p => p.leakSettleEnd st))

/-- MEASURE_COMPLETE (R135 to R138). -/
def execMeasureComplete (st : Stn) (s : State) : Result :=
  s.become (s.part.atClose (fun p => p.measureComplete st))

/-- VENT_END (R138). -/
def execVentEnd (st : Stn) (s : State) : Result :=
  s.become (s.part.atClose (fun p => p.ventEnd st))

/-- DEFERRED_RELEASE (R147). -/
def execDeferredRelease (s : State) : Result :=
  s.become (s.part.atOnce (fun p => p.gateSettle))

/-! ## Commands of the cell controller (R185, R187) -/

/-- START_AXLE (R1, R5). -/
def execStartAxle (tag : Byte) (st : Stn) (slot : BitVec 5) (serial : Entry) (s : State) : Result :=
  s.take (.startAxle tag st slot serial) (s.part.atCommand (codeStartAxle st slot) tag serial)

/-- ABORT (R12). -/
def execAbort (tag station mode : Byte) (s : State) : Result :=
  s.become (s.part.atCommand codeAbort tag [station, mode])

/-- CLEAR_STATION (R18). -/
def execClearStation (tag station : Byte) (s : State) : Result :=
  s.become (s.part.atCommand codeClearStation tag [station])

/-- SNAPSHOT (R20). -/
def execSnapshot (tag station : Byte) (s : State) : Result :=
  s.become (s.part.atCommand codeSnapshot tag [station])

/-- SNAPSHOT_READ (R21). -/
def execSnapshotRead (tag : Byte) (s : State) : Result :=
  s.become (s.part.atCommand codeSnapshotRead tag [])

/-- LOAD_BEGIN (R155, R156). -/
def execLoadBegin (tag kind slot count : Byte) (s : State) : Result :=
  s.become (s.part.atCommand codeLoadBegin tag [kind, slot, count])

/-- LOAD_ENTRY (R157). -/
def execLoadEntry (tag : Byte) (index : Fin 96) (content : Entry) (s : State) : Result :=
  s.take (.loadEntry tag index content) (s.part.atCommand (codeLoadEntry index.val) tag content)

/-- LOAD_END (R158, R159). -/
def execLoadEnd (tag : Byte) (s : State) : Result :=
  s.become (s.part.atCommand codeLoadEnd tag [])

/-- CLEAR_TABLE (R166). -/
def execClearTable (tag kind slot : Byte) (s : State) : Result :=
  s.become (s.part.atCommand codeClearTable tag [kind, slot])

/-- TABLE_STATUS (R167). -/
def execTableStatus (tag kind slot : Byte) (s : State) : Result :=
  s.become (s.part.atCommand codeTableStatus tag [kind, slot])

/-- STORE_STATUS (R180). -/
def execStoreStatus (tag : Byte) (s : State) : Result :=
  s.become (s.part.atCommand codeStoreStatus tag [])

/-- FETCH_REPORT (R181, R198). -/
def execFetchReport (tag segment : Byte) (s : State) : Result :=
  s.become (s.part.atCommand codeFetchReport tag [segment])

/-- RELEASE_REPORT (R182). -/
def execReleaseReport (tag : Byte) (number : BitVec 16) (s : State) : Result :=
  s.become (s.part.atCommand codeReleaseReport tag (out16 number))

/-- IDENT (R189). -/
def execIdent (tag : Byte) (s : State) : Result :=
  s.become (s.part.atCommand codeIdent tag [])

/-- PART_RESET (R190). -/
def execPartReset (tag scope : Byte) (s : State) : Result :=
  s.become (s.part.atCommand codePartReset tag [scope])

/-- UNKNOWN_COMMAND (R187): answered UNKNOWN, without effect. -/
def execUnknownCommand (tag code : Byte) (s : State) : Result :=
  s.take (.unknownCommand tag code) (s.part.atCommand code tag [])

end Sys2Proof.Machine
end

