-- ==== Sys2Proof/Machine/Dispatch.lean ====
section
/-!
DEFINITION. The dispatch of commands to their meanings: one arm for each constructor of `Sys2Proof.Instr`.
-/
namespace Sys2Proof.Machine

open Sys2Proof

/-- The effect of a command on everything but the queue of waiting commands. -/
def exec (i : Instr) (s : State) : Host.Outcome State Fault Refusal :=
  match i with
  | .powerOn straps => Sys2Proof.Machine.execPowerOn straps s
  | .resetLineAssert => Sys2Proof.Machine.execResetLineAssert s
  | .resetLineRelease straps => Sys2Proof.Machine.execResetLineRelease straps s
  | .cycleFrame pass frame elapsed orders => Sys2Proof.Machine.execCycleFrame pass frame elapsed orders s
  | .ringLoss order => Sys2Proof.Machine.execRingLoss order s
  | .commandFrame pass frame => Sys2Proof.Machine.execCommandFrame pass frame s
  | .unusedFrame pass frame => Sys2Proof.Machine.execUnusedFrame pass frame s
  | .sampleFrame pass frame => Sys2Proof.Machine.execSampleFrame pass frame s
  | .pressFrame pass frame => Sys2Proof.Machine.execPressFrame pass frame s
  | .driveFrame pass frame => Sys2Proof.Machine.execDriveFrame pass frame s
  | .valveStatusFrame pass frame order => Sys2Proof.Machine.execValveStatusFrame pass frame order s
  | .signalLoss owner role order => Sys2Proof.Machine.execSignalLoss owner role order s
  | .indexTimerExpiry st => Sys2Proof.Machine.execIndexTimerExpiry st s
  | .speedGateComplete st => Sys2Proof.Machine.execSpeedGateComplete st s
  | .stillGatesExpiry st => Sys2Proof.Machine.execStillGatesExpiry st s
  | .prepToRunning st => Sys2Proof.Machine.execPrepToRunning st s
  | .prepTimeout st => Sys2Proof.Machine.execPrepTimeout st s
  | .finishingEnd st => Sys2Proof.Machine.execFinishingEnd st s
  | .stoppingEnd st => Sys2Proof.Machine.execStoppingEnd st s
  | .reversalDwellEnd st => Sys2Proof.Machine.execReversalDwellEnd st s
  | .holdEnd st => Sys2Proof.Machine.execHoldEnd st s
  | .rungDwellDone st => Sys2Proof.Machine.execRungDwellDone st s
  | .rungMeasureDone st => Sys2Proof.Machine.execRungMeasureDone st s
  | .noiseStepEnd st => Sys2Proof.Machine.execNoiseStepEnd st s
  | .leakSequenceStart st => Sys2Proof.Machine.execLeakSequenceStart st s
  | .waitLeakEnd st => Sys2Proof.Machine.execWaitLeakEnd st s
  | .collectorSettleEnd st => Sys2Proof.Machine.execCollectorSettleEnd st s
  | .windowStart st => Sys2Proof.Machine.execWindowStart st s
  | .windowComplete st => Sys2Proof.Machine.execWindowComplete st s
  | .windowOvertime st => Sys2Proof.Machine.execWindowOvertime st s
  | .analysisTake => Sys2Proof.Machine.execAnalysisTake s
  | .evaluationEnd => Sys2Proof.Machine.execEvaluationEnd s
  | .manifoldGrant => Sys2Proof.Machine.execManifoldGrant s
  | .manifoldTimeout st => Sys2Proof.Machine.execManifoldTimeout st s
  | .fillTimeout st => Sys2Proof.Machine.execFillTimeout st s
  | .purgeEnd => Sys2Proof.Machine.execPurgeEnd s
  | .leakSettleEnd st => Sys2Proof.Machine.execLeakSettleEnd st s
  | .measureComplete st => Sys2Proof.Machine.execMeasureComplete st s
  | .ventEnd st => Sys2Proof.Machine.execVentEnd st s
  | .deferredRelease => Sys2Proof.Machine.execDeferredRelease s
  | .startAxle tag st slot serial => Sys2Proof.Machine.execStartAxle tag st slot serial s
  | .abort tag station mode => Sys2Proof.Machine.execAbort tag station mode s
  | .clearStation tag station => Sys2Proof.Machine.execClearStation tag station s
  | .snapshot tag station => Sys2Proof.Machine.execSnapshot tag station s
  | .snapshotRead tag => Sys2Proof.Machine.execSnapshotRead tag s
  | .loadBegin tag kind slot count => Sys2Proof.Machine.execLoadBegin tag kind slot count s
  | .loadEntry tag index content => Sys2Proof.Machine.execLoadEntry tag index content s
  | .loadEnd tag => Sys2Proof.Machine.execLoadEnd tag s
  | .clearTable tag kind slot => Sys2Proof.Machine.execClearTable tag kind slot s
  | .tableStatus tag kind slot => Sys2Proof.Machine.execTableStatus tag kind slot s
  | .storeStatus tag => Sys2Proof.Machine.execStoreStatus tag s
  | .fetchReport tag segment => Sys2Proof.Machine.execFetchReport tag segment s
  | .releaseReport tag number => Sys2Proof.Machine.execReleaseReport tag number s
  | .ident tag => Sys2Proof.Machine.execIdent tag s
  | .partReset tag scope => Sys2Proof.Machine.execPartReset tag scope s
  | .unknownCommand tag code => Sys2Proof.Machine.execUnknownCommand tag code s

end Sys2Proof.Machine
end

