-- ==== Sys2Proof/Safety.lean ====
section
/-!
DEFINITION. What the statements about the AT4 speak of: the invariants that every step keeps, and the outcomes that the
manual names (a command answered, a station halted, a test ended, a step of a profile ended).
-/
namespace Sys2Proof.Machine

open Sys2Proof

/-! ## Invariants -/

/-- The stores have the places that the manual gives them: 24 alert sources (R191) and the slots of spec/08, 8.1. -/
def Part.Sized (p : Part) : Prop :=
  p.alerts.length = 24 ∧ p.tables.profile.length = 16 ∧ p.tables.limit.length = 16 ∧ p.tables.leak.length = 8 ∧
  p.tables.variant.length = 32 ∧ p.tables.map.length = 1 ∧ p.tables.cell.length = 1

/-- The ring port and the command unit (R31, R32, R185, R188): while the ring is LOST no cycle is open, the queues and the
insertion list are empty and no station is active; while it is UP a cycle is open; the command queue holds at most 4
commands and the insertion list at most 8 frames. -/
def Part.RingLaw (p : Part) : Prop :=
  (p.port.up = false → p.port.cycle = none ∧ p.commands.queue = [] ∧ p.commands.reply = none ∧
    p.port.insertion = [] ∧ p.anyActive = false) ∧
  (p.port.up = true → p.port.cycle.isSome) ∧ p.commands.queue.length ≤ 4 ∧ p.port.insertion.length ≤ 8

/-- The number of stations in an active state. -/
def Part.activeCount (p : Part) : Nat := (allStations.filter p.activeAt).length

/-- The report store (R177, R179): the reservation count is the number of active stations, held records and active
stations never exceed 12, and the held records carry consecutive numbers up to the next one. -/
def Part.StoreLaw (p : Part) : Prop :=
  p.reports.reservations = p.activeCount ∧ p.reports.held.length + p.activeCount ≤ 12 ∧
  p.reports.held.map Report.number =
    (List.range p.reports.held.length).map
      (fun i => p.reports.nextNumber - BitVec.ofNat 16 p.reports.held.length + BitVec.ofNat 16 i)

/-- The manifold (R127): the holder of the grant is exactly the station in FILL, and no station is in FILL while the
purge runs. The other clauses say what the queue and the deferred list hold (R126, R138, R143): a queued station is in
QUEUED, on the queue once, and a station entered with VENT is in VENT_WAIT. -/
def Part.AirLaw (p : Part) : Prop :=
  (∀ st, p.manifold.holder = some st ↔ (p.leak.get st).phase = .fill) ∧
  (p.manifold.purging = true → p.manifold.holder = none) ∧
  p.manifold.queue.Nodup ∧ (∀ st ∈ p.manifold.queue, (p.leak.get st).phase = .queued) ∧
  (∀ st, (st, Held.vent) ∈ p.manifold.deferred → (p.leak.get st).phase = .ventWait)

/-- The references that a binding holds to slots of a kind: a variant, a profile, a limit table and two leak tables (R5). -/
def Binding.refs (b : Binding) (k : Kind) : List (Option SlotRef) :=
  match k with
  | .variant => [b.variant]
  | .profile => [b.profile]
  | .limit => [b.limit]
  | .leak => [b.leakA, b.leakB]
  | .map | .cell => []

/-- A binding names a slot (R154). -/
def Binding.names (b : Binding) (k : Kind) (n : Nat) : Bool := (b.refs k).any (fun r => r.any (fun x => x.slot == n))

/-- The number of stations in an active state whose binding names a slot (R154). -/
def Part.boundCount (p : Part) (k : Kind) (n : Nat) : Nat :=
  (allStations.filter (fun st => p.activeAt st && (p.station.get st).binding.names k n)).length

/-- The table store (R154, R155, R158): a slot's reference count is the number of active stations whose binding names it, and
a slot with a count other than 0 is READY; the slot of the load in progress is the one slot in LOADING; a READY slot holds a
table that validation passes; and no active station's binding names one slot as leak A and leak B. -/
def Part.TableLaw (p : Part) : Prop :=
  (∀ k n, (p.tables.slot k n).references = p.boundCount k n) ∧
  (∀ k n, (p.tables.slot k n).references ≠ 0 → (p.tables.slot k n).state = .ready) ∧
  (∀ k n, p.tables.loading = some (k, n) ↔ (p.tables.slot k n).state = .loading) ∧
  (∀ k n, (p.tables.slot k n).state = .ready → (p.tables.slot k n).fault k = none) ∧
  (∀ st a b, p.activeAt st = true → (p.station.get st).binding.leakA = some a → (p.station.get st).binding.leakB = some b →
    a.slot ≠ b.slot)

/-- The current step measures noise: a NOISE step, or a LADDER step whose rung is in phase MEASURE (R70, R72). -/
def Part.measuring (p : Part) (st : Stn) : Prop :=
  (p.station.get st).state = .running ∧
    match p.currentStep st with
    | some (.noise ..) => True
    | some (.ladder ..) => (p.profile.get st).rungPhase = .measure
    | _ => False

/-- The current step moves the setpoint: a RAMP step, or a LADDER step whose rung is in phase RAMP (R65, R69). -/
def Part.ramping (p : Part) (st : Stn) : Prop :=
  (p.station.get st).state = .running ∧
    match p.currentStep st with
    | some (.ramp ..) => True
    | some (.ladder ..) => (p.profile.get st).rungPhase = .ramp
    | _ => False

/-- A collector and its job (spec/05, 5.1; R60, R101, R111): OFF has none; SETTLING, ARMED and COLLECTING have one, EVALUATING
has one unless its evaluation carries the discard mark, and then its station is neither in PREP nor RUNNING; a step report
stands only where there is no job; and only a station whose current step measures noise has one. -/
def Part.CollectorLaw (p : Part) : Prop := ∀ st,
  ((p.collector.get st).state = .off → (p.collector.get st).job = none) ∧
  ((p.collector.get st).state = .settling ∨ (p.collector.get st).state = .armed ∨ (p.collector.get st).state = .collecting →
    (p.collector.get st).job.isSome = true) ∧
  ((p.collector.get st).state = .evaluating → (p.collector.get st).job = none →
    (p.station.get st).state ≠ .prep ∧ (p.station.get st).state ≠ .running ∧
      ∃ e, p.engine.evaluation = some e ∧ e.station = st ∧ e.discard = true) ∧
  ((p.collector.get st).report ≠ .none → (p.collector.get st).job = none) ∧
  ((p.collector.get st).job.isSome = true → p.measuring st)

/-- The quiet holders (R142, R146): each once, they are the stations that collect a quiet window, and while there is one no
station holds the grant, no purge runs and no fill or vent valve is open. -/
def Part.QuietLaw (p : Part) : Prop :=
  p.manifold.quiet.Nodup ∧
  (∀ st, st ∈ p.manifold.quiet ↔ (p.collector.get st).state = .collecting ∧ (p.collector.get st).wantsQuiet = true) ∧
  (p.manifold.quiet ≠ [] → p.manifold.holder = none ∧ p.manifold.purging = false ∧
    ∀ st, (p.leak.get st).phase ≠ .fill ∧ (p.leak.get st).phase ≠ .vent)

/-- The analysis queue (R107): it holds each station at most once and never the one in evaluation, and a station is queued or
in evaluation exactly while its collector is EVALUATING. -/
def Part.AnalysisLaw (p : Part) : Prop :=
  p.engine.queue.Nodup ∧
  (∀ st, (p.collector.get st).state = .evaluating ↔
    st ∈ p.engine.queue ∨ ∃ e, p.engine.evaluation = some e ∧ e.station = st) ∧
  (∀ e, p.engine.evaluation = some e → e.station ∉ p.engine.queue)

/-- The setpoints (R62): no magnitude above the speed ceiling; 0 where the station is not active; and the target of a step that
moves the setpoint lies within the ceiling. -/
def Part.SpeedLaw (p : Part) : Prop := ∀ st,
  (p.profile.get st).setpoint.natAbs ≤ p.cell.ceiling * 1024 ∧
  (p.activeAt st = false → (p.profile.get st).setpoint = 0) ∧
  (p.ramping st → (p.profile.get st).target.natAbs ≤ p.cell.ceiling * 1024)

/-- The REPEAT steps still open before step `i` of a profile table, the innermost first (R160: the LOOP check's depth). -/
def openLoops (table : List Entry) : Nat → List Nat
  | 0 => []
  | i + 1 =>
    match profileStep table i with
    | some (.repeatLoop _) => i :: openLoops table i
    | some .endRepeat => (openLoops table i).tail
    | _ => openLoops table i

/-- The loop stack (R58, R75 to R77): it never holds more than 4 frames, and a station in PREP has none. An active station has
a profile bound. While it is RUNNING its step is one of that profile's, and its frames are those of the REPEAT steps still open
before that step, the innermost first; each names the first body step of its REPEAT, and the END_REPEAT that ends it. -/
def Part.LoopLaw (p : Part) : Prop := ∀ st,
  (p.profile.get st).loops.length ≤ 4 ∧
  ((p.station.get st).state = .prep → (p.profile.get st).loops = []) ∧
  (p.activeAt st = true → (p.station.get st).binding.profile.isSome = true) ∧
  ((p.station.get st).state = .running →
    (p.profile.get st).step < headerSteps ((p.profileTable st).getD 0 []) ∧
    (p.profile.get st).loops.map LoopFrame.firstBody =
      (openLoops (p.profileTable st) (p.profile.get st).step).map (fun i => i + 1) ∧
    ∀ f ∈ (p.profile.get st).loops, profileStep (p.profileTable st) f.endIndex = some .endRepeat ∧
      openLoops (p.profileTable st) f.endIndex = openLoops (p.profileTable st) f.firstBody)

/-- The tables that a station is bound to (R5, R6). -/
def Part.namedAt (p : Part) (st : Stn) : Named :=
  let b := (p.station.get st).binding
  { variant := p.variantAt st, profile := p.profileTable st, limits := p.limitEntries st
    leakA := b.leakA.map (fun r => leakOf (p.tables.slot .leak r.slot).table)
    leakB := b.leakB.map (fun r => leakOf (p.tables.slot .leak r.slot).table) }

/-- What a START fixes of a line for the whole test (R170): its id, family and grade, and the limit of a line that is not a
TORQUE line. -/
def CheckLine.fixed (l : CheckLine) : Nat × Family × Grade × Int :=
  (l.id, l.family, l.grade, if l.family = .torque then 0 else l.limit)

/-- R171 for one line, as far as the line itself shows it: without an evaluation it is NOT_MEASURED; with one, the worst value of
a line that is not a TORQUE line lies beyond the limit where it is FAIL, or a LEAK line has reason GROSS, and within it elsewhere. -/
def CheckLine.sound (l : CheckLine) : Prop :=
  (l.evaluations = 0 → l.outcome = .notMeasured) ∧
  (l.evaluations ≠ 0 → l.family ≠ .torque →
    if l.outcome = .fail then l.limit < l.worst ∨ (l.family = .leak ∧ l.reason = .gross) else l.worst ≤ l.limit)

/-- R171 for a TORQUE line and its check: with an evaluation it is FAIL exactly when its worst value lies outside the check's
minimum and maximum. -/
def CheckLine.soundFor (l : CheckLine) (k : TorqueCheck) : Prop :=
  l.evaluations ≠ 0 → (l.outcome = .fail ↔ l.worst < k.minimum ∨ k.maximum < l.worst)

/-- A sequencer that may still write its line (R125, R131, R137). -/
def Phase.testing (x : Phase) : Bool :=
  match x with
  | .queued | .fill | .settle | .measure => true
  | .idle | .ventWait | .vent => false

/-- The check lines (R171) of every station, in a test and after it, and what carries the law through a test: the bound tables
name no check id twice and no leak that is missing (R2), the list holds the lines of those tables in their order (R170), and a
sequencer that may still write a line belongs to a test that goes on and holds the record of one of its two leaks (R124, R139). -/
def Part.LineLaw (p : Part) : Prop := ∀ st,
  (∀ l ∈ (p.station.get st).lines, l.sound) ∧
  (p.activeAt st = true →
    idsClash (p.namedAt st).ids = false ∧ (p.namedAt st).leakMissing = false ∧
    (p.station.get st).lines.map CheckLine.fixed = (p.namedAt st).lines.map CheckLine.fixed ∧
    ∀ l ∈ (p.station.get st).lines, ∀ k ∈ torqueChecks (p.profileTable st), k.id = l.id → l.soundFor k) ∧
  ((p.leak.get st).phase.testing = true →
    p.activeAt st = true ∧ (p.station.get st).state ≠ .stopping ∧
    ∃ r, ((p.namedAt st).leakA = some r ∨ (p.namedAt st).leakB = some r) ∧ (p.leak.get st).copy = r.inCycles)

/-! ## A command answered -/

/-- A command is taken at its arrival: the ring is UP, the part takes part in it, and both queues are empty (R185). -/
def State.Ready (s : State) : Prop :=
  s.part.online = true ∧ s.part.commands.queue = [] ∧ s.part.commands.reply = none

/-- A reply of one frame: code and tag of the command, reply code, 15 result bytes (R187). -/
def plainReply (code tag : Byte) (reply : ReplyCode) (results : List Byte) : Reply :=
  { code := code, tag := tag, reply := reply, results := padTo 15 results, second := none }

/-- The state after a command was taken with the effect `p` and answered with one frame. -/
def State.replied (s : State) (p : Part) (code tag : Byte) (reply : ReplyCode) (results : List Byte) : State :=
  { s with part := { p with commands := { queue := [], reply := some (plainReply code tag reply results) } } }

/-! ## The rows by the block they belong to -/

/-- The executor's events of a station at a close that halt no station and end no test (spec/04). -/
def executorEvents (st : Stn) : List Instr :=
  [.reversalDwellEnd st, .holdEnd st, .rungDwellDone st, .rungMeasureDone st, .noiseStepEnd st, .leakSequenceStart st,
    .waitLeakEnd st]

/-- The collector's events of a station (spec/05). -/
def collectorEvents (st : Stn) : List Instr :=
  [.collectorSettleEnd st, .windowStart st, .windowComplete st, .windowOvertime st]

/-- The leak sequencer's events of a station (spec/07). -/
def sequencerEvents (st : Stn) : List Instr :=
  [.manifoldTimeout st, .fillTimeout st, .leakSettleEnd st, .measureComplete st, .ventEnd st]

/-- The events of a station: those of its tracker and controller, and those of its executor, collector and sequencer. -/
def stationEvents (st : Stn) : List Instr :=
  [.indexTimerExpiry st, .speedGateComplete st, .stillGatesExpiry st, .prepToRunning st, .prepTimeout st,
    .finishingEnd st, .stoppingEnd st] ++ executorEvents st ++ collectorEvents st ++ sequencerEvents st

/-- The events of the analysis engine and of the manifold (spec/06, spec/07). -/
def partEvents : List Instr := [.analysisTake, .evaluationEnd, .manifoldGrant, .purgeEnd, .deferredRelease]

/-- The commands that concern a station, and PART_RESET (spec/11, 11.2). -/
def isStationCommand (i : Instr) : Bool :=
  match i with
  | .startAxle .. => true
  | .abort .. => true
  | .clearStation .. => true
  | .partReset .. => true
  | _ => false

/-- The other commands: tables, reports, status, snapshots and unknown codes (spec/11, 11.2). -/
def isStoreCommand (i : Instr) : Bool :=
  match i with
  | .snapshot .. => true
  | .snapshotRead .. => true
  | .loadBegin .. => true
  | .loadEntry .. => true
  | .loadEnd .. => true
  | .clearTable .. => true
  | .tableStatus .. => true
  | .storeStatus .. => true
  | .fetchReport .. => true
  | .releaseReport .. => true
  | .ident .. => true
  | .unknownCommand .. => true
  | _ => false

/-! ## Cycle closes -/

/-- The number of closes that a difference d of R27 brings: d of them for d up to 20, one beyond. -/
def closesFor (d : Nat) : Nat := if d ≤ 20 then d else 1

/-! ## A frame claimed -/

/-- Entry `k` of the map claims a frame of content `x` from `source` and takes it: it is the lowest-numbered matching
entry, its role reads the frame's kind, and its seen flag is clear (R35). -/
def Router.Claims (r : Router) (x : Sample) (source : Addr) (k : Nat) (c : Channel) : Prop :=
  r.entries[k]? = some c ∧ (source &&& c.entry.mask) = c.entry.base ∧ roleReads c.entry.role x = true ∧ c.seen = false ∧
  ∀ j c', j < k → r.entries[j]? = some c' → (source &&& c'.entry.mask) ≠ c'.entry.base

/-- The entry with the frame recorded (R37). -/
def Channel.took (c : Channel) (x : Sample) (source : Addr) : Channel :=
  { c with seen := true, frame := some x, source := some source }

/-- The part after a frame of the return pass: the insertion list went out before it, and then the frame (R24, R31; log
entry 7). -/
def Part.passed (p : Part) (f : Frame) : Part :=
  { p with
    ringOut := p.ringOut ++ p.port.insertion.map (fun g => (Pass.outbound, g)) ++ [(.returning, f)]
    port := { p.port with insertion := [] } }

/-- The part after a good frame on the return pass that entry `k` took: the frame passed, the entry holds it, and the role of
the entry remembers its source (R31, R35, R37). -/
def Part.took (p : Part) (f : Frame) (x : Sample) (k : Nat) (c : Channel) : Part :=
  { p.passed f with
    router :=
      { entries := p.router.entries.set k (c.took x (frameSource f))
        roles := p.router.roles.map (fun r =>
          if r.owner = c.entry.owner ∧ r.role = c.entry.role then { r with source := some (frameSource f) } else r) } }

/-! ## A CYCLE frame that closes cycles -/

/-- A good CYCLE frame comes on the outbound pass while cycle `o` is open; no deadline of the part's own time reference lies
within the time that passes (log entry 6), and no command waits (R186). -/
def State.Ticks (s : State) (f : Frame) (us : Nat) (orders : List (List Work)) (o : BitVec 32) : Prop :=
  (Instr.cycleFrame .outbound f us orders).wellFormed = true ∧ s.part.listening = true ∧ goodCycle f = true ∧
  s.part.port.up = true ∧ s.part.port.cycle = some o ∧ s.part.port.lossTimer + us ≤ 1000 ∧
  (∀ e, s.part.engine.evaluation = some e → e.age + us < 1000) ∧ s.part.commands.queue = []

/-- The frame closes cycle `o` and no other: it carries the next number (R27). -/
def State.Closes (s : State) (f : Frame) (us : Nat) (orders : List (List Work)) (o : BitVec 32) : Prop :=
  s.Ticks f us orders o ∧ cycleNumber f = o + 1

/-! ## The tracker at a close -/

/-- The edge change of a reading: 0 at the first one of a test (R45, R46). -/
def Tracker.changeTo (x : Tracker) (edges : BitVec 16) : Int :=
  match x.reference with
  | none => 0
  | some (before, _) => (edges - before).toInt

/-- The index change of a reading: none is made at the first one of a test (R45, R47). -/
def Tracker.marksTo (x : Tracker) (index : BitVec 8) : Nat :=
  match x.reference with
  | none => 0
  | some (_, before) => (index - before).toNat

/-- From `x` to `y` the tracker took a TACH value at the close of cycle `o` (R45 to R49, R51): the counts are the new
reference, position and bin are those of the edges since the index, the direction is the sign of the edge change, an index
change begins one revolution, the index-lost flag is cleared by an index change and set beyond P + P / 8 edges, INDEX is
reported while it is set and for an index change of 2 or more, and a valid entry joins the history of four. -/
def Tracker.Reads (x y : Tracker) (edges : BitVec 16) (index : BitVec 8) (latched : BitVec 16) (o : BitVec 32) : Prop :=
  let e := (edges - latched).toInt
  let change := x.changeTo edges
  let marks := x.marksTo index
  y.p = x.p ∧ y.reference = some (edges, index) ∧ y.edgesAtIndex = latched ∧ y.position = (e % (x.p : Int)).toNat ∧
  y.bin = y.position * 256 / x.p ∧
  y.direction = (if 0 < change then .forward else if change < 0 then .reverse else .none) ∧
  y.revolution = (if marks = 0 then x.revolution else x.revolution + 1) ∧
  (y.indexLost = true ↔ (x.indexLost = true ∧ marks = 0) ∨ x.p + x.p / 8 < e.natAbs) ∧
  (y.indexReport = true ↔ y.indexLost = true ∨ 2 ≤ marks) ∧
  y.history = ({ cycle := o, revolution := y.revolution, bin := y.bin, direction := y.direction, valid := true } ::
    x.history).take 4

/-- From `x` to `y` a close of cycle `o` brought no TACH value (R45, R49, R51): every angle field stays, nothing is reported, and
the last entry is repeated with its valid mark clear. -/
def Tracker.Misses (x y : Tracker) (o : BitVec 32) : Prop :=
  y.p = x.p ∧ y.reference = x.reference ∧ y.edgesAtIndex = x.edgesAtIndex ∧ y.position = x.position ∧ y.bin = x.bin ∧
  y.direction = x.direction ∧ y.revolution = x.revolution ∧ y.indexLost = x.indexLost ∧ y.indexReport = false ∧
  y.history = ((match x.history with
    | last :: _ => { last with cycle := o, valid := false }
    | [] => { cycle := o, revolution := 0, bin := 0, direction := .none, valid := false }) :: x.history).take 4

/-- From `x` to `y` a close counted the index timer and the speed gate, with this edge change and setpoint in force (R52 to
R54); 61,440 units are 60 rpm. -/
def Tracker.Counts (x y : Tracker) (change inForce : Int) : Prop :=
  let sum := x.gateSum + change
  y.indexTimer = (if y.indexLost = false then 0 else if 61440 ≤ inForce.natAbs then satSucc 40000 x.indexTimer
    else x.indexTimer) ∧
  (x.gateCount < 199 → y.gateCount = x.gateCount + 1 ∧ y.gateSum = sum ∧ y.speed = x.speed ∧ y.stillGates = x.stillGates) ∧
  (199 ≤ x.gateCount → y.gateCount = 0 ∧ y.gateSum = 0 ∧ y.speed = some (clampTo 30000 ((sum * 6000).tdiv (x.p : Int))) ∧
    y.stillGates = if sum = 0 ∧ 61440 ≤ inForce.natAbs then satSucc 100 x.stillGates else 0)

/-! ## The insertion list -/

/-- The SETPOINT frame of a station by its state (R11, R31, R83): none in IDLE. -/
def Part.setpointBy (p : Part) (st : Stn) : Option Frame :=
  let e := p.profile.get st
  let frame (speed : Int) (limit : Nat) (flags step : Byte) : Option Frame :=
    some (mkFrame kindSetpoint p.port.address (p.destination (some st) .drive) (p.cycleNow.setWidth 8)
      (z24 speed ++ n16 limit ++ [flags, step]))
  match (p.station.get st).state with
  | .idle => none
  | .prep => frame 0 0 0 0
  | .running | .finishing | .stopping => frame (e.setpoint.tdiv 64) e.torqueLimit 1 (BitVec.ofNat 8 e.step)
  | .halted => frame 0 0 2 (BitVec.ofNat 8 e.step)

/-- One bit of a frame's byte for each station, from bit `low` up. -/
def stationBits (low : Nat) (f : Stn → Prop) [DecidablePred f] : Nat :=
  (if f 0 then 2 ^ low else 0) + (if f 1 then 2 ^ (low + 1) else 0) + (if f 2 then 2 ^ (low + 2) else 0)
    + (if f 3 then 2 ^ (low + 3) else 0)

/-- The VALVE_CMD frame (R31, R148): supply and purge, then the fill and vent valves of the stations. -/
def Part.valvesBy (p : Part) : Frame :=
  mkFrame kindValveCmd p.port.address (p.destination none .valve) (p.cycleNow.setWidth 8)
    [BitVec.ofNat 8 ((if p.manifold.holder ≠ none then 1 else 0) + (if p.manifold.purging = true then 2 else 0)),
      BitVec.ofNat 8 (stationBits 0 (fun st => (p.leak.get st).phase = .fill)
        + stationBits 4 (fun st => (p.leak.get st).phase = .vent))]

/-- A valve is commanded open (spec/07, 7.3): supply, purge, or a fill or vent valve. -/
def Part.ValveOpen (p : Part) : Prop :=
  p.manifold.holder ≠ none ∨ p.manifold.purging = true ∨
    ∃ st, (p.leak.get st).phase = .fill ∨ (p.leak.get st).phase = .vent

/-- The REPLY frames of a waiting reply, sent to address 0 (R31, R187, R198): two for an OK FETCH_REPORT. -/
def Part.replyBy (p : Part) (r : Reply) : List Frame :=
  let frame (results : List Byte) : Frame :=
    mkFrame kindReply p.port.address 0 (p.cycleNow.setWidth 8) ([r.code, r.tag, BitVec.ofNat 8 r.reply.code] ++ results)
  match r.second with
  | none => [frame r.results]
  | some results => [frame r.results, frame results]

/-- A source may be sent (R193): it is pending and its priority is not below the mask level. -/
def Part.Eligible (p : Part) (n : Nat) : Prop :=
  n < 24 ∧ (p.alertAt n).pending = true ∧ p.cell.maskLevel ≤ p.cell.priorities.getD n 0

/-- The ALERT frame of a source, sent to address 0 (R31, R192): source number, station or 0xFF, detail, report number. -/
def Part.alertBy (p : Part) (n : Nat) : Frame :=
  mkFrame kindAlert p.port.address 0 (p.cycleNow.setWidth 8)
    ([BitVec.ofNat 8 n, if n < 20 then BitVec.ofNat 8 (n % 4) else 0xFF] ++ out16 (p.alertAt n).detail
      ++ out16 (p.alertAt n).report)

/-! ## What an event does to a station -/

/-- The leak phase after a stop or a halt: a queued sequencer becomes IDLE, every other phase of a test goes to VENT
(R14, R17, R139, R140). -/
def Phase.afterStop (x : Phase) : Phase :=
  match x with
  | .idle | .queued => .idle
  | .fill | .settle | .measure | .ventWait | .vent => .vent

/-- The collector of a station that stopped or halted: OFF, or EVALUATING until a discarded evaluation ends (R102). -/
def CollectorState.stopped (x : CollectorState) : Prop := x = .off ∨ x = .evaluating

/-- An attempt ended with one of the six causes (R96 to R98): its count alone rises, the station leaves the quiet holders, and
the collector is ARMED again with one retry less and window timer 0; without budget it is OFF and EXHAUSTED, with no job (log
entry 27), and RETRIES_EXHAUSTED is pending with the step index. -/
def Part.AttemptEnded (p q : Part) (st : Stn) (cause : Cause) : Prop :=
  let c := p.collector.get st
  let k := (p.station.get st).counters
  let count (x : Cause) (n : Nat) : Nat := if cause = x then satSucc 65535 n else n
  (q.station.get st).counters = { k with
    disturbed := count .disturbed k.disturbed, unsteady := count .unsteady k.unsteady, defect := count .defect k.defect
    direction := count .direction k.direction, index := count .index k.index, overtime := count .overtime k.overtime
    deferrals := (q.station.get st).counters.deferrals } ∧
  st ∉ q.manifold.quiet ∧ (q.collector.get st).evaluated = c.evaluated ∧
  (c.budget ≠ 0 → (q.collector.get st).state = .armed ∧ (q.collector.get st).budget = c.budget - 1 ∧
    (q.collector.get st).windowTimer = 0 ∧ (q.collector.get st).job = c.job) ∧
  (c.budget = 0 → (q.collector.get st).state = .off ∧ (q.collector.get st).report = .exhausted ∧
    (q.collector.get st).exhausted = true ∧ (q.collector.get st).job = none ∧
    q.alertAt (Source.retriesExhausted st).number =
      { pending := true, detail := BitVec.ofNat 16 (p.profile.get st).step, report := 0 })

/-- A check line finished at the report write (R172): a noise line that was never evaluated takes its reason from the
exhaustion mark. -/
def CheckLine.finishedBy (exhausted : Bool) (l : CheckLine) : CheckLine :=
  if (l.family = .order ∨ l.family = .level) ∧ l.evaluations = 0 then
    { l with reason := if exhausted = true then .retriesExhausted else .noWindow }
  else l

/-- The final verdict of an end kind and a finished list, by the tests of R174 in their order. -/
def verdictBy (kind : EndKind) (ls : List CheckLine) : Verdict :=
  if kind = .aborted ∨ kind = .halted then .aborted
  else if ∃ l ∈ ls, l.grade = .must ∧ l.outcome = .fail then .reject
  else if ∃ l ∈ ls, l.grade = .must ∧ l.outcome = .notMeasured then .incomplete
  else if ∃ l ∈ ls, l.grade = .watch ∧ l.outcome = .fail then .passNote
  else .pass

/-- The record of a report write (R175) from the part before it and the part after it: the number, the station's fields and
counts, end kind, halt reason and verdict, the finished lines, and the detail blocks, 0 in every field without the present
flag. -/
def Part.RecordedAs (p q : Part) (st : Stn) (kind : EndKind) (reason : HaltReason) (r : Report) : Prop :=
  let x := q.station.get st
  let k := q.leak.get st
  let block (d : Detail) : Detail := if d.present = true then d else
    { present := false, p0 := 0, p1 := 0, t0 := 0, t1 := 0, decay := 0, rate := 0, fillTime := 0 }
  r.number = p.reports.nextNumber ∧ r.station = st ∧ r.serial = x.serial ∧ r.variantCode = x.variantCode ∧
  r.startCycle = x.startCycle ∧ r.endCycle = p.cycleNow ∧ r.endKind = kind ∧ r.haltReason = reason ∧
  r.verdict = verdictBy kind r.lines ∧ r.clamped = x.clamped ∧ r.counters = x.counters ∧ r.lines = x.lines ∧
  r.detailA = block k.detailA ∧ r.detailB = block k.detailB

/-- The station halted with a reason (R17): setpoint 0, no pending abort, the leak phase abandoned, the collector
stopped, the check list finished (R172), the halt report appended and its reservation converted, the tracker STOPPED (R44),
HALTED pending with its report number (R192). -/
def Part.HaltedAs (p q : Part) (st : Stn) (reason : HaltReason) : Prop :=
  (q.station.get st).state = .halted ∧ (q.station.get st).haltReason = reason ∧
  (q.station.get st).endCycle = some p.cycleNow ∧ (q.profile.get st).setpoint = 0 ∧
  (q.profile.get st).pendingAbort = false ∧ (q.tracker.get st).tracking = false ∧
  (q.leak.get st).phase = (p.leak.get st).phase.afterStop ∧ (q.collector.get st).state.stopped ∧
  (q.station.get st).lines =
    (p.station.get st).lines.map (CheckLine.finishedBy (p.collector.get st).exhausted) ∧
  (∃ r, q.reports.held = p.reports.held ++ [r] ∧ p.RecordedAs q st .halted reason r) ∧
  q.reports.reservations = p.reports.reservations - 1 ∧ q.reports.nextNumber = p.reports.nextNumber + 1 ∧
  q.alertAt (Source.halted st).number =
    { pending := true, detail := BitVec.ofNat 16 reason.code, report := p.reports.nextNumber }

/-- The station's test ended in IDLE with a report of an end kind (R10, R15, R172, R178). -/
def Part.EndedAs (p q : Part) (st : Stn) (kind : EndKind) : Prop :=
  (q.station.get st).state = .idle ∧ (q.station.get st).endCycle = some p.cycleNow ∧
  (q.tracker.get st).tracking = false ∧
  (q.station.get st).lines =
    (p.station.get st).lines.map (CheckLine.finishedBy (p.collector.get st).exhausted) ∧
  (∃ r, q.reports.held = p.reports.held ++ [r] ∧ p.RecordedAs q st kind .none r) ∧
  q.reports.reservations = p.reports.reservations - 1 ∧ q.reports.nextNumber = p.reports.nextNumber + 1 ∧
  q.alertAt (Source.reportReady st).number =
    { pending := true, detail := p.reports.nextNumber, report := p.reports.nextNumber }

/-- The station's current step ended (R13, R59, R60): with an AT_STEP_END abort pending the station enters STOPPING,
otherwise the executor has begun step `next`. -/
def Part.StepEnded (p q : Part) (st : Stn) (next : Nat) : Prop :=
  if (p.profile.get st).pendingAbort = true then
    (q.station.get st).state = .stopping ∧ (q.profile.get st).pendingAbort = false ∧
    (q.profile.get st).target = 0 ∧ (q.profile.get st).remainder = 0
  else
    (q.station.get st).state = .running ∧ (q.profile.get st).step = next ∧ (q.profile.get st).stepTimer = 0 ∧
    (q.profile.get st).remainder = 0 ∧
    (q.station.get st).counters.steps = satSucc 65535 (p.station.get st).counters.steps

/-! ## The executor at a close -/

/-- The step that was current turned into step `next` at a close (R13, R59, R60): as `Part.StepEnded` says of the event, but for
the count of steps begun. -/
def Part.StepTurned (p q : Part) (st : Stn) (next : Nat) : Prop :=
  let x := q.profile.get st
  if (p.profile.get st).pendingAbort = true then
    (q.station.get st).state = .stopping ∧ x.pendingAbort = false ∧ x.target = 0 ∧ x.remainder = 0
  else (q.station.get st).state = .running ∧ x.step = next ∧ x.stepTimer = 0 ∧ x.remainder = 0

/-- The profile ended at a close (R9, R60, R78, R79, R81): the station is in FINISHING with this early-stop flag, or in STOPPING
when an AT_STEP_END abort was pending; the executor aims at 0 with a cleared remainder and its step index stays. -/
def Part.ProfileEnded (p q : Part) (st : Stn) (early : Bool) : Prop :=
  let x := q.profile.get st
  x.target = 0 ∧ x.remainder = 0 ∧ x.step = (p.profile.get st).step ∧ x.setpoint = (p.profile.get st).setpoint ∧
  if (p.profile.get st).pendingAbort = true then (q.station.get st).state = .stopping ∧ x.pendingAbort = false
  else (q.station.get st).state = .finishing ∧ (q.station.get st).earlyStop = early

/-- The executor at a close before any move: the setpoint in force is the setpoint (R61), and the zero run and the last sign
count it (R64). -/
def Executor.counted (e : Executor) : Executor :=
  { e with
    inForce := e.setpoint
    zeroRun := if e.setpoint = 0 then satSucc 200000 e.zeroRun else 0
    lastSign := if e.setpoint = 0 then e.lastSign else if 0 < e.setpoint then .forward else .reverse }

/-- One move at `rate` rpm/s toward an aim leads to setpoint `v` and remainder `r` (R63). -/
def Executor.MovesTo (e : Executor) (rate : Nat) (aim v : Int) (r : Nat) : Prop :=
  let sum := e.remainder + rate * 1024
  let move : Int := ((sum / 20000 : Nat) : Int)
  if (aim - e.setpoint).natAbs ≤ sum / 20000 then v = aim ∧ r = 0
  else v = (if e.setpoint < aim then e.setpoint + move else e.setpoint - move) ∧ r = sum % 20000

/-- A close of a ramp leads to setpoint `v` and remainder `r` (R63, R64): away from 0 the aim is the target, or 0 while the target
has the other sign; at 0 a target of the other sign from the last one waits until the zero run has reached the reversal dwell. -/
def Executor.RampsTo (e : Executor) (rate dwell : Nat) (v : Int) (r : Nat) : Prop :=
  let opposes : Prop := (0 < e.setpoint ∧ e.target < 0) ∨ (e.setpoint < 0 ∧ 0 < e.target)
  let reverses : Prop := (0 < e.target ∧ e.lastSign = .reverse) ∨ (e.target < 0 ∧ e.lastSign = .forward)
  (e.setpoint ≠ 0 → opposes → e.MovesTo rate 0 v r) ∧
  (e.setpoint ≠ 0 → ¬opposes → e.MovesTo rate e.target v r) ∧
  (e.setpoint = 0 → ¬reverses ∨ dwell ≤ satSucc 200000 e.zeroRun → e.MovesTo rate e.target v r) ∧
  (e.setpoint = 0 → reverses → satSucc 200000 e.zeroRun < dwell → v = 0 ∧ r = 0)

/-- REPEAT steps between step `i` and step `m`, both apart. -/
def opensBetween (table : List Entry) (i m : Nat) : Nat :=
  ((List.range m).filter (fun j => decide (i < j) && (profileStep table j matches some (.repeatLoop _)))).length

/-- END_REPEAT steps between step `i` and step `m`, both apart. -/
def endsBetween (table : List Entry) (i m : Nat) : Nat :=
  ((List.range m).filter (fun j => decide (i < j) && (profileStep table j matches some .endRepeat))).length

/-- Step `last` is the END_REPEAT that matches the REPEAT at step `i` (spec/04, 4.1): the first one after it before which the
REPEAT and END_REPEAT steps of the body balance. -/
def Encloses (table : List Entry) (i last : Nat) : Prop :=
  i < last ∧ last < 64 ∧ profileStep table last = some .endRepeat ∧
  opensBetween table i last = endsBetween table i last ∧
  ∀ m, i < m → m < last → profileStep table m = some .endRepeat → endsBetween table i m < opensBetween table i m

/-- The executor's work of a station at a close reads the check list before the sequencer's work of that close may write it
(R80): the sequencer is IDLE, or its work comes later. -/
def Part.ReadsLinesFirst (p : Part) (orders : List (List Work)) (st : Stn) : Prop :=
  (p.leak.get st).phase = .idle ∨ before (orderOr (orders.headD [])) (.profile st) (.leak st) = true

/-! ## A window at a close (R90 to R94) -/

/-- The entry gives an angle that is not excluded (R90, R91). -/
def HistoryEntry.usable (v : Variant) (e : HistoryEntry) : Bool := e.valid && !v.excludes e.bin

/-- The entry's revolution is late against the open one (R90): its distance back, mod 2^32, is 1 to 2^31 - 1. -/
def HistoryEntry.late (openRevolution : BitVec 32) (e : HistoryEntry) : Bool :=
  let back := (openRevolution - e.revolution).toNat
  decide (1 ≤ back ∧ back ≤ 2 ^ 31 - 1)

/-- A current sample (R90). -/
def Placement.current (v : Variant) (openRevolution : BitVec 32) (x : Placement) : Bool :=
  match x.entry with
  | some e => e.usable v && decide (e.revolution = openRevolution)
  | none => false

/-- A newer entry (R90). -/
def HistoryEntry.newer (v : Variant) (openRevolution : BitVec 32) (e : HistoryEntry) : Bool :=
  e.usable v && decide (e.revolution ≠ openRevolution) && !e.late openRevolution

/-- A newer sample (R90). -/
def Placement.newer (v : Variant) (openRevolution : BitVec 32) (x : Placement) : Bool :=
  match x.entry with
  | some e => e.newer v openRevolution
  | none => false

/-- An unplaceable sample (R90). -/
def Placement.unplaceable (x : Placement) : Bool :=
  match x.entry with
  | some e => !e.valid
  | none => true

/-- The samples among `xs` that fall into a channel's bin. -/
def inBin (xs : List Placement) (ch : Stn) (bin : Nat) : List Placement :=
  xs.filter (fun x => decide (x.channel = ch ∧ x.entry.map HistoryEntry.bin = some bin))

/-- Searching down from bin `b`, `n` bins below it with wrapping, is the first filled one (R94). -/
def FilledBelow (filled : Nat → Prop) (b n : Nat) : Prop :=
  n < 256 ∧ filled ((b + 256 - n) % 256) ∧ ∀ m, m < n → ¬filled ((b + 256 - m) % 256)

/-- The value of bin `b` of a revolution (R94): its own mean, or that of the nearest filled bin below, or 0 in a channel without any. -/
def BinValue (v : Variant) (sum : Nat → Int) (count : Nat → Nat) (b : Nat) (z : Int) : Prop :=
  let filled (j : Nat) : Prop := 0 < count j ∧ v.excludes j = false
  (∀ n, FilledBelow filled b n →
    let j := (b + 256 - n) % 256
    z = (sum j).tdiv (count j : Int)) ∧
  ((∀ j, j < 256 → ¬filled j) → z = 0)

/-- The close of cycle `o` leads a COLLECTING collector from `c` to `d` with the samples `xs`, one for each binned channel that has a
role, and the entry `now` of the cycle closed (R90 to R94). Outside the lead-in the current samples are placed and the unplaceable
ones are defects. A newer sample, or without a binned channel a newer `now`, makes a boundary: the lead-in ends, or the open
revolution is closed into the average accumulators, and the newer samples are placed in the revolution that the first of them
names. -/
def Collector.ClosesTo (c : Collector) (v : Variant) (binned : List Stn) (o : BitVec 32) (xs : List Placement)
    (now : Option HistoryEntry) (d : Collector) : Prop :=
  let seen := if c.leadIn = true then [] else xs.filter (Placement.current v c.openRevolution)
  let lost := if c.leadIn = true then [] else xs.filter Placement.unplaceable
  let newer := xs.filter (Placement.newer v c.openRevolution)
  let spoiled (ys : List Placement) : Nat := (ys.filter Placement.spoiled).length
  let next := if binned = [] then now.filter (HistoryEntry.newer v c.openRevolution) else (newer.head?).bind Placement.entry
  let ends := c.leadIn = false ∧ next.isSome = true
  let opened := next.isSome = true
  (d.windowTimer = c.windowTimer + 1 ∧ d.placed = c.placed + seen.length + newer.length ∧
    d.defects = c.defects + spoiled seen + lost.length + spoiled newer) ∧
  (d.leadIn = true ↔ c.leadIn = true ∧ next = none) ∧
  d.openRevolution = (next.map HistoryEntry.revolution).getD c.openRevolution ∧
  d.firstBoundary = (if c.leadIn = true ∧ opened then some o else c.firstBoundary) ∧
  d.latestBoundary = (if opened then some o else c.latestBoundary) ∧
  d.revolutionsDone = c.revolutionsDone + (if ends then 1 else 0) ∧
  d.lengths = c.lengths ++ (if ends then [(o - c.latestBoundary.getD o).toNat] else []) ∧
  (∀ ch, ch ∉ binned → d.channels.get ch = c.channels.get ch) ∧
  ∀ ch, ch ∈ binned → ∀ b, b < 256 →
    let x := c.channels.get ch
    let y := d.channels.get ch
    let sum (j : Nat) : Int := x.sums.getD j 0 + ((inBin seen ch j).map Placement.value).sum
    let count (j : Nat) : Nat := x.counts.getD j 0 + (inBin seen ch j).length
    let added : Int := ((inBin newer ch b).map Placement.value).sum
    (ends → y.sums.getD b 0 = added ∧ y.counts.getD b 0 = (inBin newer ch b).length ∧
      ∃ z, BinValue v sum count b z ∧ y.averages.getD b 0 = x.averages.getD b 0 + z) ∧
    (¬ends → y.sums.getD b 0 = sum b + added ∧ y.counts.getD b 0 = count b + (inBin newer ch b).length ∧
      y.averages.getD b 0 = x.averages.getD b 0)

/-- The window direction after the test of a close (R96, 2): that of a valid entry that shows one, where the window had none. -/
def directionAfter (was : Direction) (now : Option HistoryEntry) : Direction :=
  match now with
  | some e => if e.valid = true ∧ was = .none then e.direction else was
  | none => was

/-- The samples that a collector takes at the close of cycle `o` (R38, R90, R91): of each binned channel that has a role, in the order
of the channels, what the router delivers, a defect when overloaded, or else the held value as a defect, with the entry of the
tracker `q` for cycle `o` less the role's skew. -/
def Part.samplesAt (p : Part) (q : Tracker) (o : BitVec 32) (st : Stn) : List Placement :=
  (allStations.filter (fun ch => decide (vibRole ch ∈ (p.station.get st).required))).filterMap (fun ch =>
    (p.roleAt st (vibRole ch)).map (fun r =>
      let delivered := serving (some st) (vibRole ch) p.router.entries
      { channel := ch
        value := (delivered.getD r.value).vibValue
        spoiled := match delivered with
          | some x => x.overloaded
          | none => true
        entry := q.history.find? (fun e => decide (e.cycle = o - BitVec.ofNat 32 r.skew)) }))

/-! ## The metrics (R113 to R115) -/

/-- `r` is isqrt `n`: the largest integer whose square is not above `n`. -/
def IsRoot (n r : Nat) : Prop := r * r ≤ n ∧ n < (r + 1) * (r + 1)

/-- The sum over the bins 0 to 255. -/
def overBins (f : Nat → Int) : Int := ((List.range 256).map f).sum

/-- The value of a limit entry's metric on a waveform x[0] to x[255]: the amplitude at the entry's order (R114) for ORDER, the level
(R115) for LEVEL. -/
def LimitEntry.Measures (e : LimitEntry) (wave : List Int) (v : Nat) : Prop :=
  let x (b : Nat) : Int := wave.getD b 0
  if e.family = .order then
    let re : Int := overBins (fun b => x b * cosine (e.order * b % 256)) / 32768
    let im : Int := overBins (fun b => x b * sine (e.order * b % 256)) / 32768
    ∃ r, IsRoot (re * re + im * im).toNat r ∧ v = min (r / 32) 131071
  else ∃ r, IsRoot (overBins (fun b => x b * x b) / 16).toNat r ∧ v = min r 131071

/-! ## What faults a table (R159 to R165, R199; spec/11, 11.3) -/

/-- Only these bytes of an entry hold fields; every other byte is 0 (R199). -/
def OnlyFields (e : Entry) (fields : List Nat) : Prop := ∀ i, i < 16 → i ∉ fields → u8 e i = 0

/-- A table's speed in rpm. -/
def TableSpeed (v : Int) : Prop := -30000 ≤ v ∧ v ≤ 30000

/-- The header of a PROFILE table is in range (R160). -/
def HeaderInRange (e : Entry) : Prop :=
  OnlyFields e [0, 1, 2, 3] ∧ (64 ≤ u16 e 0 ∧ u16 e 0 ≤ 4096) ∧ (1 ≤ u8 e 2 ∧ u8 e 2 ≤ 64) ∧ u8 e 3 ≤ 1

/-- A step entry is in range (R160, R199), by step kind. -/
def StepInRange (e : Entry) : Prop :=
  (u8 e 0 = 1 ∧ OnlyFields e [0, 1, 2, 3, 4, 5, 6] ∧ TableSpeed (i16 e 1) ∧ 1 ≤ u16 e 3 ∧ u16 e 3 ≤ 20000) ∨
  (u8 e 0 = 2 ∧ 1 ≤ u16 e 1 ∧
    ((u8 e 7 = 0 ∧ OnlyFields e [0, 1, 2, 5, 6, 7]) ∨
      (u8 e 7 = 1 ∧ OnlyFields e [0, 1, 2, 5, 6, 7, 8, 9, 10, 11, 12, 13] ∧ u8 e 8 ≤ 63 ∧ u8 e 9 ≤ 2))) ∨
  (u8 e 0 = 3 ∧ OnlyFields e [0, 1, 2, 3, 4, 5, 6, 7, 8, 9, 10, 11, 12] ∧ u8 e 1 ≤ 15 ∧ u8 e 2 ≤ 1 ∧
    (1 ≤ u16 e 3 ∧ u16 e 3 ≤ 20000) ∧ (1 ≤ u8 e 7 ∧ u8 e 7 ≤ 64) ∧ u8 e 8 ≤ 1 ∧ u8 e 11 ≤ 1 ∧ u8 e 12 ≤ 15) ∨
  (u8 e 0 = 4 ∧ OnlyFields e [0, 1, 2, 3, 5, 6, 9, 10] ∧ (1 ≤ u8 e 1 ∧ u8 e 1 ≤ 8) ∧ u8 e 2 ≤ 15 ∧ u8 e 3 ≤ 1) ∨
  (u8 e 0 = 5 ∧ OnlyFields e [0, 1, 2] ∧ u8 e 1 ≤ 1 ∧ u8 e 2 ≤ 1) ∨
  (u8 e 0 = 7 ∧ OnlyFields e [0, 1]) ∨
  (u8 e 0 ∈ [6, 8, 9, 10, 11] ∧ OnlyFields e [0])

/-- A limit entry is in range (R161). -/
def LimitInRange (e : Entry) : Prop :=
  OnlyFields e [0, 1, 2, 3, 4, 5, 6, 7, 8, 9, 10, 11] ∧ u8 e 0 ≤ 63 ∧ u8 e 1 ≤ 1 ∧ u8 e 2 ≤ 3 ∧ u8 e 3 ≤ 2 ∧
  TableSpeed (i16 e 5) ∧ TableSpeed (i16 e 7) ∧ u24 e 9 ≤ 131071

/-- Entry `i` of a LEAK table is in range (R162). -/
def LeakInRange (i : Nat) (e : Entry) : Prop :=
  if i = 0 then
    OnlyFields e [0, 1, 2, 3, 4, 5, 6, 7, 8, 9, 10, 11, 12] ∧ u8 e 0 ≤ 63 ∧ u8 e 1 ≤ 2 ∧
    (110000 ≤ u24 e 2 ∧ u24 e 2 ≤ 800000) ∧ 100 ≤ u16 e 5 ∧ (1000 ≤ u16 e 9 ∧ u16 e 9 ≤ 60000) ∧ 100 ≤ u16 e 11
  else
    OnlyFields e [0, 1, 2, 3, 4, 5, 6] ∧ (1 ≤ u24 e 0 ∧ u24 e 0 ≤ 100000) ∧ u24 e 3 ≤ 100000 ∧ u8 e 6 ≤ 1

/-- Entry `i` of a VARIANT table is in range (R163). -/
def VariantInRange (i : Nat) (e : Entry) : Prop :=
  if i = 0 then
    OnlyFields e [0, 1, 2, 3, 4, 5] ∧ u8 e 2 ≤ 15 ∧ (u8 e 3 ≤ 15 ∨ u8 e 3 = 255) ∧ (u8 e 4 ≤ 7 ∨ u8 e 4 = 255) ∧
    (u8 e 5 ≤ 7 ∨ u8 e 5 = 255)
  else
    OnlyFields e [0, 1, 2, 3, 4, 5] ∧ u8 e 0 ≤ 6 ∧ (1 ≤ u8 e 1 ∧ u8 e 1 ≤ 25) ∧ 100 ≤ u16 e 4

/-- The bins that an exclusion arc excludes (R163). -/
def excludedBins (start stop : Nat) : Nat :=
  if start < stop then stop - start else if stop < start then 256 - start + stop else 0

/-- A MAP entry is in range (R164): roles 0 to 7 at stations 0 to 3, role 8 at the cell, and a skew only with a vibration role. -/
def MapInRange (e : Entry) : Prop :=
  OnlyFields e [0, 1, 2, 3, 4] ∧ u8 e 0 ≤ 63 ∧ u8 e 1 ≤ 63 ∧
  ((u8 e 2 ≤ 3 ∧ u8 e 3 ≤ 7) ∨ (u8 e 2 = 4 ∧ u8 e 3 = 8)) ∧ u8 e 4 ≤ 3 ∧ (3 < u8 e 3 → u8 e 4 = 0)

/-- Entry `i` of a CELL table is in range (R165). -/
def CellInRange (i : Nat) (e : Entry) : Prop :=
  if i = 0 then
    OnlyFields e [0, 1, 2, 3, 4, 5, 6, 7, 8, 9, 10] ∧ (100 ≤ u16 e 0 ∧ u16 e 0 ≤ 6000) ∧
    (100 ≤ u16 e 2 ∧ u16 e 2 ≤ 20000) ∧ u16 e 4 ≤ 10000 ∧ u16 e 6 ≤ 5000 ∧ 1000 ≤ u16 e 8 ∧ u8 e 10 ≤ 4
  else if i = 1 then ∀ k, k < 16 → u8 e k ≤ 3
  else OnlyFields e [0, 1, 2, 3, 4, 5, 6, 7] ∧ ∀ k, k < 8 → u8 e k ≤ 3

/-- A check of stage 3 fails on entry `i` (R159); `steps` is the step count of a PROFILE table. -/
def EntryFails (k : Kind) (steps i : Nat) (e : Entry) (b : BadTable) : Prop :=
  match k, b with
  | .profile, .range => i ≠ 0 ∧ if i ≤ steps then ¬StepInRange e else ¬∀ r, r < 8 → TableSpeed (i16 e (2 * r))
  | .profile, .band => i ≠ 0 ∧ i ≤ steps ∧ u8 e 0 = 2 ∧ u8 e 7 = 1 ∧ i16 e 12 < i16 e 10
  | .limit, .range => ¬LimitInRange e
  | .limit, .band => i16 e 7 < i16 e 5
  | .limit, .order => u8 e 1 = 0 ∧ ¬(1 ≤ u8 e 4 ∧ u8 e 4 ≤ 127)
  | .leak, .range => ¬LeakInRange i e
  | .variant, .range => ¬VariantInRange i e
  | .variant, .exclusion => i = 1 ∧ 128 < excludedBins (u8 e 2) (u8 e 3)
  | .map, .range => ¬MapInRange e
  | .cell, .range => ¬CellInRange i e
  | _, _ => False

/-- The first check that fails on an entry, in the order RANGE, BAND, ORDER, EXCLUSION (R159). -/
def FirstCheck (fails : BadTable → Prop) (b : BadTable) : Prop :=
  fails b ∧ (b = .range ∨ ¬fails .range ∧ (b = .band ∨ ¬fails .band ∧ (b = .order ∨ ¬fails .order ∧ b = .exclusion)))

/-- REPEAT steps before step `i`. -/
def opensBefore (table : List Entry) (i : Nat) : Nat :=
  ((List.range i).filter (fun j => profileStep table j matches some (.repeatLoop _))).length

/-- END_REPEAT steps before step `i`. -/
def endsBefore (table : List Entry) (i : Nat) : Nat :=
  ((List.range i).filter (fun j => profileStep table j matches some .endRepeat)).length

/-- LOOP is found at step `i` (R160): a REPEAT at depth 4, or an END_REPEAT or EXIT_IF_FAILED at depth 0. -/
def LoopAt (table : List Entry) (i : Nat) : Prop :=
  ((∃ n, profileStep table i = some (.repeatLoop n)) ∧ opensBefore table i = endsBefore table i + 4) ∨
  ((profileStep table i = some .endRepeat ∨ profileStep table i = some .exitIfFailed) ∧
    opensBefore table i = endsBefore table i)

/-- The REPEAT at step `i` is never closed in a table of `steps` steps. -/
def StaysOpen (table : List Entry) (steps i : Nat) : Prop :=
  i < steps ∧ (∃ n, profileStep table i = some (.repeatLoop n)) ∧
  ∀ m, i < m → m ≤ steps → endsBetween table i m ≤ opensBetween table i m

/-- LOOP gives step `i` (R160): the first step at fault, or, when there is none, the innermost REPEAT still open at the end. -/
def LoopFault (table : List Entry) (steps i : Nat) : Prop :=
  (i < steps ∧ LoopAt table i ∧ ∀ j, j < i → ¬LoopAt table j) ∨
  ((∀ j, j < steps → ¬LoopAt table j) ∧ StaysOpen table steps i ∧ ∀ j, i < j → ¬StaysOpen table steps j)

/-- FINISH gives step `i` (R160): the first FINISH that is not the last step, or else a last step that is not FINISH. -/
def FinishFault (table : List Entry) (steps i : Nat) : Prop :=
  let early (j : Nat) : Prop := j + 1 < steps ∧ profileStep table j = some .finish
  (early i ∧ ∀ j, j < i → ¬early j) ∨
  ((∀ j, ¬early j) ∧ i = steps - 1 ∧ profileStep table i ≠ some .finish)

/-- LADDER gives step `i` (R160): the ladder-present flag is clear and step `i` is the first LADDER. -/
def LadderFault (table : List Entry) (steps i : Nat) : Prop :=
  let ladder (j : Nat) : Prop := ∃ a b c d m w h q n, profileStep table j = some (.ladder a b c d m w h q n)
  headerLadder (table.getD 0 []) = false ∧ i < steps ∧ ladder i ∧ ∀ j, j < i → ¬ladder j

/-- TORQUE_ID gives step `i` (R160): the first HOLD whose check id an earlier torque check carries with another minimum, maximum
or grade. -/
def TorqueFault (table : List Entry) (steps i : Nat) : Prop :=
  let clashes (n : Nat) : Prop := ∃ d l c, profileStep table n = some (.hold d l (some c)) ∧
    ∃ j d' l' c', j < n ∧ profileStep table j = some (.hold d' l' (some c')) ∧ c'.id = c.id ∧
      (c'.minimum ≠ c.minimum ∨ c'.maximum ≠ c.maximum ∨ c'.grade ≠ c.grade)
  i < steps ∧ clashes i ∧ ∀ j, j < i → ¬clashes j

/-- DUP_ID gives entry `i` (R161): the first entry whose check id an earlier entry of the table carries. -/
def DuplicateFault (table : List Entry) (i : Nat) : Prop :=
  let repeats (n : Nat) : Prop := ∃ j, j < n ∧ u8 (table.getD j []) 0 = u8 (table.getD n []) 0
  i < table.length ∧ repeats i ∧ ∀ j, j < i → ¬repeats j

/-- Checks made one after the other: the first that finds a fault gives it (R159). -/
def FirstStage : List (BadTable → Nat → Prop) → BadTable → Nat → Prop
  | [], _, _ => False
  | stage :: rest, b, i => stage b i ∨ ((∀ b' i', ¬stage b' i') ∧ FirstStage rest b i)

/-- Validation finds fault `b` at entry `i` of a loaded slot (R159): completeness, the header of a PROFILE table and the entry count
it asks for, the entries in ascending index, and the structure checks in their order; step i is entry i + 1. -/
def Slot.FaultyAs (x : Slot) (k : Kind) : BadTable → Nat → Prop :=
  let table := x.table
  let header := table.getD 0 []
  let steps := u8 header 2
  let unwritten (n : Nat) : Prop := n < x.entryCount ∧ x.entries.getD n none = none
  let fails (n : Nat) (b : BadTable) : Prop := n < x.entryCount ∧ EntryFails k steps n (table.getD n []) b
  FirstStage [
    fun b i => b = .count ∧ unwritten i ∧ ∀ n, n < i → ¬unwritten n,
    fun b i => k = .profile ∧ b = .range ∧ i = 0 ∧ ¬HeaderInRange header,
    fun b i => k = .profile ∧ b = .count ∧ i = 0 ∧ x.entryCount ≠ 1 + steps + (if u8 header 3 = 1 then 2 else 0),
    fun b i => FirstCheck (fails i) b ∧ ∀ n, n < i → ∀ b', ¬fails n b',
    fun b i => k = .profile ∧ b = .loop ∧ ∃ n, i = n + 1 ∧ LoopFault table steps n,
    fun b i => k = .profile ∧ b = .finish ∧ ∃ n, i = n + 1 ∧ FinishFault table steps n,
    fun b i => k = .profile ∧ b = .ladder ∧ ∃ n, i = n + 1 ∧ LadderFault table steps n,
    fun b i => k = .profile ∧ b = .torqueId ∧ ∃ n, i = n + 1 ∧ TorqueFault table steps n,
    fun b i => k = .limit ∧ b = .dupId ∧ DuplicateFault table i]

end Sys2Proof.Machine
end

