-- ==== Sys2Proof/Certificates/Slice0/Obligations.lean ====
section
/-!
DEFINITION. The statements about the AT4 that the provers prove. Each docstring names the rule or section that it
formalises.
-/

open Sys2Proof Sys2Proof.Machine

/-! ## The queue of commands -/

/-- Each step carries out the command at the front of the queue on the state with the queue's rest; an empty queue
leaves the state as it is (the model's own queue, log entry 5). -/
def Obligations.StepRunsFrontCommand : Prop :=
  (∀ (s : State) (i : Instr) (rest : List Instr), step { s with pending := i :: rest } = exec i { s with pending := rest })
  ∧ (∀ s : State, step { s with pending := [] } = .next { s with pending := [] })

/-- Every command whose operands the ring or the part can present has a next state, in every state, and leaves the
commands that wait as they are (spec/95: each step is whole). Operands that neither can present are refused as ill-formed and by
no other name: that refusal is the model's own choice (DESIGN CHOICE, log entry 16). -/
def Obligations.WellFormedCommandsComplete : Prop :=
  ∀ (i : Instr) (s : State),
    (i.wellFormed = true → ∃ t, exec i s = .next t ∧ t.pending = s.pending) ∧
    (i.wellFormed = false → exec i s = .refused .illFormed)

/-! ## Power and reset -/

/-- POWER_ON and RESET_LINE_RELEASE (R22, R34, R43, R57, R123, R168, R184, R195, R196): from any state the ring address
is that of the straps and the ring is LOST with no cycle, every station is IDLE with its reset record, every block holds its
reset values (those of the executor are R84's, of the collector R106's, of the sequencer and the manifold R151's, and the capture is
absent by R21), and the waiting commands stay. A release also ends the holding of the reset line. That POWER_ON keeps the level
of the line and that a release resets from either level is the model's reading (DEDUCED, log entry 15), and the averaged
waveform, window speed and window number 0 of a reset collector are the model's choice (DESIGN CHOICE, log entry 21). -/
def Obligations.PowerOnValues : Prop :=
  ∀ (a : Addr) (s : State), ∃ t u : State,
    exec (.powerOn a) s = .next t ∧ exec (.resetLineRelease a) s = .next u ∧
    t.pending = s.pending ∧ u.pending = s.pending ∧
    t.part.resetHeld = s.part.resetHeld ∧ u.part.resetHeld = false ∧ u.part = { t.part with resetHeld := false } ∧
    t.part.port.address = a ∧ t.part.port.up = false ∧ t.part.port.cycle = none ∧ t.part.port.insertion = [] ∧
    t.part.port.lossStart = t.part.clock ∧ t.part.router = { entries := [], roles := [] } ∧
    (∀ st, t.part.station.get st = Station.reset ∧ t.part.tracker.get st = Tracker.reset ∧
      t.part.profile.get st = Executor.reset ∧ t.part.collector.get st = Collector.reset ∧
      t.part.leak.get st = Sequencer.reset) ∧
    t.part.engine = { queue := [], evaluation := none } ∧ t.part.manifold = Manifold.reset ∧
    (∀ k n, n < k.slots → (t.part.tables.slots k)[n]? =
      some { state := .empty, generation := 0, references := 0, entryCount := 0, entries := [] }) ∧
    t.part.tables.loading = none ∧ t.part.reports = { held := [], reservations := 0, nextNumber := 0 } ∧
    t.part.commands = { queue := [], reply := none } ∧ t.part.capture = none ∧
    (∀ n, n < 24 → t.part.alerts[n]? = some { pending := false, detail := 0, report := 0 })

/-- RESET_LINE_ASSERT (R24): the reset line is held, and nothing else changes. While it is held, a frame of every kind and
on either pass is forwarded and not read: the part's only change is the frame put on the ring. R24 gives the forwarding; that
nothing else changes at the assertion, and that no time passes while the line is held, is the model's reading (DEDUCED, log
entry 15). -/
def Obligations.ResetLineHeld : Prop :=
  (∀ s : State, exec .resetLineAssert s = .next { s with part := { s.part with resetHeld := true } }) ∧
  (∀ (i : Instr) (pass : Pass) (f : Frame) (s : State), s.part.resetHeld = true → i.wellFormed = true →
    ((∃ us orders, i = .cycleFrame pass f us orders) ∨ i = .commandFrame pass f ∨ i = .unusedFrame pass f ∨
      i = .sampleFrame pass f ∨ i = .pressFrame pass f ∨ i = .driveFrame pass f ∨
      (∃ order, i = .valveStatusFrame pass f order)) →
    exec i s = .next { s with part := { s.part with ringOut := s.part.ringOut ++ [(pass, f)] } })

/-! ## The ring port -/

/-- Forwarding (R24): whatever a received frame's tests, the ring state and the address, the frame leaves on the ring
unchanged, after everything that was put on the ring before it. -/
def Obligations.FramesForwarded : Prop :=
  ∀ (i : Instr) (pass : Pass) (f : Frame) (s t : State),
    ((∃ us orders, i = .cycleFrame pass f us orders) ∨ i = .commandFrame pass f ∨ i = .unusedFrame pass f ∨
      i = .sampleFrame pass f ∨ i = .pressFrame pass f ∨ i = .driveFrame pass f ∨
      (∃ order, i = .valveStatusFrame pass f order)) →
    exec i s = .next t →
    ∃ appended, t.part.ringOut = s.part.ringOut ++ appended ++ [(pass, f)] ∧
      (∀ x ∈ appended, x.1 = Pass.outbound ∧ x.2 ∈ s.part.port.insertion)

/-- Frames that have no effect (R24, R25, R26, R28, R29): a frame other than CYCLE that comes on the outbound pass, carries the
AT4's own address as source, has a bad check word, comes while the ring is LOST or carries a tag that is not the open
cycle's, or that reaches a part whose address only forwards, is forwarded and not read; and a good frame of a kind that the AT4
does not use, or a COMMAND frame for another address or not from the ring master, is not used. On the return pass the
insertion list is appended before the frame (R31; that it goes out there is the model's choice, DESIGN CHOICE, log entry 7);
nothing else of the part changes. -/
def Obligations.FramesWithoutEffect : Prop :=
  ∀ (i : Instr) (pass : Pass) (f : Frame) (s : State), s.part.resetHeld = false → i.wellFormed = true →
    (((i = .commandFrame pass f ∨ i = .unusedFrame pass f ∨ i = .sampleFrame pass f ∨ i = .pressFrame pass f ∨
          i = .driveFrame pass f ∨ (∃ order, i = .valveStatusFrame pass f order)) ∧
        (pass = .outbound ∨ s.part.port.address = 0 ∨ s.part.port.address = 63 ∨ frameSource f = s.part.port.address ∨
          checkWord (f.take 22) ≠ be16 f 22 ∨ s.part.port.up = false ∨
          (∀ n, s.part.port.cycle = some n → frameTag f ≠ n.setWidth 8))) ∨
      ((i = .unusedFrame pass f ∨ i = .commandFrame pass f) ∧
        (frameKind f ≠ kindCommand ∨ frameDest f ≠ s.part.port.address ∨ frameSource f ≠ 0))) →
    exec i s = .next { s with part :=
      if pass = .outbound then { s.part with ringOut := s.part.ringOut ++ [(pass, f)] }
      else { s.part with
        ringOut := s.part.ringOut ++ s.part.port.insertion.map (fun g => (Pass.outbound, g)) ++ [(pass, f)]
        port := { s.part.port with insertion := [] } } }

/-- What the AT4 appends (R26, R31, R148, R187, R192, R193, R194, R196, R197, R198). After a good CYCLE frame that opens a cycle,
a new one or the first after a loss, with no command waiting, the insertion list holds in this order: the SETPOINT frames of the
stations that are not IDLE; one VALVE_CMD frame with the valves as they stand, always when a valve is open or a closing frame was
owed, and then none is owed any more; the waiting reply in one frame, or two for an OK FETCH_REPORT, and no reply waits any more;
and, when a source is eligible, the ALERT frame of the eligible source of highest priority and then lowest number, which is no
longer pending. Every frame is 24 bytes long, carries the AT4's address as source and the opened cycle's tag, and passes the
check word test of R26. After POWER_ON the first good CYCLE frame's list is the ALERT frame of RING_RESTORED alone. -/
def Obligations.AppendedFramesSound : Prop :=
  (∀ (f : Frame) (us : Nat) (orders : List (List Work)) (s : State),
    (Instr.cycleFrame .outbound f us orders).wellFormed = true → s.part.listening = true → goodCycle f = true →
    s.part.commands.queue = [] →
    ((s.part.port.up = true ∧ s.part.port.lossTimer + us ≤ 1000 ∧ s.part.port.cycle ≠ none ∧
        s.part.port.cycle ≠ some (cycleNumber f)) ∨ s.part.port.up = false) →
    ∃ t, exec (.cycleFrame .outbound f us orders) s = .next t ∧
      t.part.port.address = s.part.port.address ∧ t.part.port.cycle = some (cycleNumber f) ∧
      t.part.commands = { queue := [], reply := none } ∧ t.part.manifold.closingOwed = false ∧
      (∃ valves alert : List Frame,
        t.part.port.insertion = allStations.filterMap t.part.setpointBy ++ valves
          ++ (match s.part.commands.reply with
            | none => []
            | some r => t.part.replyBy r) ++ alert ∧
        (valves = [t.part.valvesBy] ∨ valves = []) ∧
        (t.part.ValveOpen ∨ s.part.manifold.closingOwed = true → valves = [t.part.valvesBy]) ∧
        (s.part.port.up = false → ¬t.part.ValveOpen → s.part.manifold.closingOwed = false → valves = []) ∧
        ((alert = [] ∧ ∀ n, ¬t.part.Eligible n) ∨
          (∃ n, n < 24 ∧ alert = [t.part.alertBy n] ∧ (t.part.alertAt n).pending = false ∧
            t.part.cell.maskLevel ≤ t.part.cell.priorities.getD n 0 ∧
            ∀ m, t.part.Eligible m → t.part.cell.priorities.getD m 0 < t.part.cell.priorities.getD n 0 ∨
              (t.part.cell.priorities.getD m 0 = t.part.cell.priorities.getD n 0 ∧ n < m))) ∧
        (∀ n, n < 24 → (s.part.alertAt n).pending = true → s.part.cell.maskLevel ≤ s.part.cell.priorities.getD n 0 →
          alert ≠ [])) ∧
      ∀ g ∈ t.part.port.insertion, g.length = 24 ∧ frameSource g = s.part.port.address ∧
        frameTag g = (cycleNumber f).setWidth 8 ∧ checkWord (g.take 22) = be16 g 22) ∧
  (∀ (a : Addr) (f : Frame) (us : Nat) (orders : List (List Work)) (s u : State),
    (Instr.cycleFrame .outbound f us orders).wellFormed = true → goodCycle f = true → a ≠ 0 → a ≠ 63 →
    s.part.resetHeld = false → exec (.powerOn a) s = .next u →
    ∃ t, exec (.cycleFrame .outbound f us orders) u = .next t ∧
      t.part.port.insertion = [mkFrame kindAlert a 0 ((cycleNumber f).setWidth 8)
        ([20, 0xFF] ++ out16 (BitVec.ofNat 16 (min (us / 1000) 65535)) ++ [0, 0])])

/-- SAMPLE_FRAME (R35, R37): a good VIB, TACH or TEMP frame is recorded in the lowest-numbered entry that matches its
source address, if that entry's role reads its kind and has taken no frame in the cycle; the role remembers the source
(R31). The other entries, the roles' values and every other block stay as they are. A good frame of any sample kind that no
entry claims, or whose claiming entry reads another kind or has its seen flag set, is dropped: nothing is recorded. The
insertion list goes out before the frame (R31; DESIGN CHOICE, log entry 7). -/
def Obligations.SampleTaken : Prop :=
  (∀ (f : Frame) (x : Sample) (k : Nat) (c : Channel) (s : State),
    (Instr.sampleFrame .returning f).wellFormed = true → s.part.good .returning f = true → sampleOf f = some x →
    s.part.router.Claims x (frameSource f) k c →
    exec (.sampleFrame .returning f) s = .next { s with part := { s.part with
      ringOut := s.part.ringOut ++ s.part.port.insertion.map (fun g => (Pass.outbound, g)) ++ [(.returning, f)]
      port := { s.part.port with insertion := [] }
      router :=
        { entries := s.part.router.entries.set k (c.took x (frameSource f))
          roles := s.part.router.roles.map (fun r =>
            if r.owner = c.entry.owner ∧ r.role = c.entry.role then { r with source := some (frameSource f) } else r) } } }) ∧
  (∀ (i : Instr) (f : Frame) (x : Sample) (s : State), i.wellFormed = true → s.part.good .returning f = true →
    sampleOf f = some x →
    (i = .sampleFrame .returning f ∨ i = .pressFrame .returning f ∨ i = .driveFrame .returning f ∨
      (∃ order, i = .valveStatusFrame .returning f order)) →
    ((∀ c ∈ s.part.router.entries, (frameSource f &&& c.entry.mask) ≠ c.entry.base) ∨
      (∃ (k : Nat) (c : Channel), s.part.router.entries[k]? = some c ∧ (frameSource f &&& c.entry.mask) = c.entry.base ∧
        (∀ j c', j < k → s.part.router.entries[j]? = some c' → (frameSource f &&& c'.entry.mask) ≠ c'.entry.base) ∧
        (roleReads c.entry.role x = false ∨ c.seen = true))) →
    exec i s = .next { s with part := { s.part with
      ringOut := s.part.ringOut ++ s.part.port.insertion.map (fun g => (Pass.outbound, g)) ++ [(.returning, f)]
      port := { s.part.port with insertion := [] } } })

/-- PRESS_FRAME (R37, R129, R130, R132): a good PRESS frame, not faulted, that an entry of the station's PRESS role takes and
that carries at least the target pressure while the station is in FILL ends the fill at its arrival: SETTLE with settle
count 0, the fill time written, the grant released, and the purge begun unless the purge time is 0. A PRESS frame that an entry
takes is recorded and ends no fill when it is faulted, carries less than the target, or finds the station not in FILL. -/
def Obligations.PressEndsFill : Prop :=
  ∀ (f : Frame) (pa : BitVec 24) (k : Nat) (c : Channel) (st : Stn) (s : State),
    (Instr.pressFrame .returning f).wellFormed = true → s.part.good .returning f = true →
    c.entry.owner = some st →
    (sampleOf f = some (.press pa false) → s.part.router.Claims (.press pa false) (frameSource f) k c →
      s.part.AirLaw → (s.part.leak.get st).phase = .fill → (s.part.leak.get st).copy.target ≤ pa.toNat →
      ∃ t, exec (.pressFrame .returning f) s = .next t ∧
        t.part.router = (s.part.took f (.press pa false) k c).router ∧
        (t.part.leak.get st).phase = .settle ∧ (t.part.leak.get st).settleCount = 0 ∧
        ((s.part.leak.get st).which = some .a →
          (t.part.leak.get st).detailA.fillTime = (s.part.leak.get st).fillCloses / 20) ∧
        ((s.part.leak.get st).which = some .b →
          (t.part.leak.get st).detailB.fillTime = (s.part.leak.get st).fillCloses / 20) ∧
        (s.part.cell.purge ≠ 0 → t.part.manifold.holder = none ∧ t.part.manifold.purging = true ∧
          t.part.manifold.purgeCount = 0) ∧
        (s.part.cell.purge = 0 →
          t.part.manifold.holder ≠ some st ∧ t.part.manifold.purging = s.part.manifold.purging)) ∧
    (∀ fault, sampleOf f = some (.press pa fault) → s.part.router.Claims (.press pa fault) (frameSource f) k c →
      (fault = true ∨ pa.toNat < (s.part.leak.get st).copy.target ∨ (s.part.leak.get st).phase ≠ .fill) →
      exec (.pressFrame .returning f) s = .next { s with part := s.part.took f (.press pa fault) k c })

/-- DRIVE_FRAME (R37, R41): a good DRIVE frame with its fault flag set that an entry of an active station takes halts that
station with DRIVE_FAULT at its arrival; taken for a station that is not active, or with the fault flag clear, it is
recorded in its entry, the role remembers its source (R31), and nothing else changes. The insertion list goes out before the
frame (DESIGN CHOICE, log entry 7). -/
def Obligations.DriveFrames : Prop :=
  ∀ (f : Frame) (torque : BitVec 16) (ready fault : Bool) (k : Nat) (c : Channel) (st : Stn) (s : State),
    (Instr.driveFrame .returning f).wellFormed = true → s.part.good .returning f = true →
    sampleOf f = some (.drive torque ready fault) →
    s.part.router.Claims (.drive torque ready fault) (frameSource f) k c → c.entry.owner = some st →
    (fault = true → s.part.activeAt st = true → s.part.AirLaw → s.part.Sized →
      ∃ t, exec (.driveFrame .returning f) s = .next t ∧ s.part.HaltedAs t.part st .driveFault ∧
        t.part.router = (s.part.took f (.drive torque ready fault) k c).router) ∧
    (fault = false ∨ s.part.activeAt st = false →
      exec (.driveFrame .returning f) s = .next { s with part := { s.part with
        ringOut := s.part.ringOut ++ s.part.port.insertion.map (fun g => (Pass.outbound, g)) ++ [(.returning, f)]
        port := { s.part.port with insertion := [] }
        router :=
          { entries := s.part.router.entries.set k (c.took (.drive torque ready fault) (frameSource f))
            roles := s.part.router.roles.map (fun r =>
              if r.owner = c.entry.owner ∧ r.role = c.entry.role then { r with source := some (frameSource f) }
              else r) } } })

/-- VALVE_STATUS_FRAME (R37, R42): a good VALVE_STATUS frame that an entry of CELL takes halts, when its fault flag is set,
every active station whose leak sequencer is in FILL or VENT with VALVE_FAULT, whatever the order in which the halts are
taken, and no other station changes its state; with the fault flag clear it is recorded in its entry, the role remembers its
source (R31), and nothing else changes. The insertion list goes out before the frame (DESIGN CHOICE, log entry 7). -/
def Obligations.ValveStatusFrames : Prop :=
  ∀ (f : Frame) (fault low : Bool) (order : List Stn) (k : Nat) (c : Channel) (s : State),
    (Instr.valveStatusFrame .returning f order).wellFormed = true → s.part.good .returning f = true →
    sampleOf f = some (.valve fault low) → s.part.router.Claims (.valve fault low) (frameSource f) k c →
    c.entry.owner = none →
    ∃ t, exec (.valveStatusFrame .returning f order) s = .next t ∧
      t.part.router = (s.part.took f (.valve fault low) k c).router ∧
      (fault = true → ∀ st,
        (s.part.activeAt st = true ∧
          ((s.part.leak.get st).phase = .fill ∨ (s.part.leak.get st).phase = .vent) →
          (t.part.station.get st).state = .halted ∧ (t.part.station.get st).haltReason = .valveFault ∧
          (t.part.profile.get st).setpoint = 0 ∧
          ∃ r ∈ t.part.reports.held, r.station = st ∧ r.endKind = .halted ∧ r.haltReason = .valveFault) ∧
        (¬(s.part.activeAt st = true ∧
            ((s.part.leak.get st).phase = .fill ∨ (s.part.leak.get st).phase = .vent)) →
          (t.part.station.get st).state = (s.part.station.get st).state ∧
          (t.part.station.get st).haltReason = (s.part.station.get st).haltReason)) ∧
      (fault = false →
        t = { s with part := { s.part with
          ringOut := s.part.ringOut ++ s.part.port.insertion.map (fun g => (Pass.outbound, g)) ++ [(.returning, f)]
          port := { s.part.port with insertion := [] }
          router :=
            { entries := s.part.router.entries.set k (c.took (.valve fault low) (frameSource f))
              roles := s.part.router.roles.map (fun r =>
                if r.owner = c.entry.owner ∧ r.role = c.entry.role then { r with source := some (frameSource f) }
                else r) } } })

/-- SIGNAL_LOSS (R16, R40). The row: when a role's missing count stands at 2,000, which it does only at the close at which it
became so, every active station that holds the role in its required set halts with SIGNAL_LOSS, whatever the order in which
the halts are taken, and no other station changes its state; at any other count nothing changes. CYCLE_FRAME: the close that
takes the missing count of a required role from 1,999 to 2,000, because no entry of the role delivered, halts the RUNNING
station whatever the order in which the works of the close are taken, with SIGNAL_LOSS when the silence is taken first, as in
the default order (DESIGN CHOICE, log entry 3), and otherwise with it or with the cause that the tracker reported first. -/
def Obligations.SignalLossHalts : Prop :=
  (∀ (owner : Option Stn) (role : Role) (order : List Stn) (r : RoleRecord) (s : State),
    (Instr.signalLoss owner role order).wellFormed = true → s.part.online = true →
    s.part.roleRecord owner role = some r →
    (r.missing ≠ 2000 → exec (.signalLoss owner role order) s = .next s) ∧
    (r.missing = 2000 → ∃ t, exec (.signalLoss owner role order) s = .next t ∧ ∀ st,
      (s.part.activeAt st = true ∧ owner = roleOwner st role ∧ role ∈ (s.part.station.get st).required →
        (t.part.station.get st).state = .halted ∧ (t.part.station.get st).haltReason = .signalLoss ∧
        ∃ x ∈ t.part.reports.held, x.station = st ∧ x.endKind = .halted ∧ x.haltReason = .signalLoss) ∧
      (¬(s.part.activeAt st = true ∧ owner = roleOwner st role ∧ role ∈ (s.part.station.get st).required) →
        (t.part.station.get st).state = (s.part.station.get st).state))) ∧
  (∀ (f : Frame) (us : Nat) (orders : List (List Work)) (o : BitVec 32) (st : Stn) (role : Role) (r : RoleRecord)
      (s : State), s.Ticks f us orders o → cycleNumber f ≠ o → (s.part.station.get st).state = .running →
    role ∈ (s.part.station.get st).required → s.part.roleAt st role = some r → r.missing = 1999 →
    serving r.owner r.role s.part.router.entries = none →
    ∃ t, exec (.cycleFrame .outbound f us orders) s = .next t ∧ (t.part.station.get st).state = .halted ∧
      (orders = [] → (t.part.station.get st).haltReason = .signalLoss) ∧
      (t.part.station.get st).haltReason ∈ [HaltReason.signalLoss, .encoderLoss, .overspeed])

/-- COMMAND_FRAME (R185, R186, R187): a good COMMAND frame for the AT4 is taken at once when both queues are empty: the part is
the one that the command which the frame spells leaves (its code in byte 4, its tag in byte 5, its 16 argument bytes after
them), and the command's reply, with its code and tag, then waits. The command joins the tail of the command queue when a reply
waits or 1 to 3 commands do; it is dropped with CMD_OVERFLOW when 4 do. The last two change nothing else of the part but the
frames put on the ring. The insertion list goes out before the frame (DESIGN CHOICE, log entry 7). -/
def Obligations.CommandArrival : Prop :=
  ∀ (f : Frame) (s : State), (Instr.commandFrame .returning f).wellFormed = true →
    s.part.good .returning f = true → frameDest f = s.part.port.address → frameSource f = 0 →
    let command : Command := { code := byteAt f 4, tag := byteAt f 5, args := (f.drop 6).take 16 }
    ∃ t, exec (.commandFrame .returning f) s = .next t ∧
      (s.part.commands.queue = [] → s.part.commands.reply = none →
        (let answer := (s.part.passed f).perform command
         let reply : Reply := { code := byteAt f 4, tag := byteAt f 5, reply := answer.reply,
                                results := padTo 15 answer.results, second := answer.second.map (padTo 15) }
         t = { s with part := { answer.part with commands := { queue := [], reply := some reply } } }) ∧
        t.part.commands.queue = [] ∧ ∃ r, t.part.commands.reply = some r ∧ r.code = byteAt f 4 ∧ r.tag = byteAt f 5 ∧
          r.results.length = 15) ∧
      ((s.part.commands.queue = [] ∧ s.part.commands.reply ≠ none) ∨
          (1 ≤ s.part.commands.queue.length ∧ s.part.commands.queue.length ≤ 3) →
        t = { s with part := { s.part with
          ringOut := s.part.ringOut ++ s.part.port.insertion.map (fun g => (Pass.outbound, g)) ++ [(.returning, f)]
          port := { s.part.port with insertion := [] }
          commands := { s.part.commands with queue := s.part.commands.queue ++ [command] } } }) ∧
      (s.part.commands.queue.length = 4 →
        t = { s with part := { s.part with
          ringOut := s.part.ringOut ++ s.part.port.insertion.map (fun g => (Pass.outbound, g)) ++ [(.returning, f)]
          port := { s.part.port with insertion := [] }
          alerts := s.part.alerts.set 21 { pending := true, detail := byteAt f 4 ++ byteAt f 5, report := 0 } } })

/-! ## Ring cycles -/

/-- CYCLE_FRAME (R27, R33), where no cycle closes. With d = 0 a good CYCLE frame that repeats the open cycle's number restarts
the loss timer; no cycle closes and no list is filled. The insertion list, whose pass ended, goes out before the frame (R31;
DESIGN CHOICE, log entry 7). The first good CYCLE frame while the ring is LOST makes it UP and opens the cycle whose
number it carries without closing any: no station, tracker, executor, collector, sequencer, role or table changes, and
RING_RESTORED is raised with the whole milliseconds since the loss start, at most 65,535. Hypotheses: no deadline of the
part's own time reference lies within the time that passes (that a good CYCLE frame comes before a loss of the same
microsecond, and an evaluation's bound before the frame, is the model's choice: DESIGN CHOICE, log entry 6). At the restore an
evaluation that the loss marked for discard may still run: one that reaches its 1 ms in that time ends and leaves its collector
OFF (R109, R111). -/
def Obligations.CycleRepeatedOrRestored : Prop :=
  ∀ (f : Frame) (us : Nat) (orders : List (List Work)) (s : State),
    (Instr.cycleFrame .outbound f us orders).wellFormed = true → s.part.listening = true → goodCycle f = true →
    (s.part.port.up = true → s.part.port.cycle = some (cycleNumber f) → s.part.port.lossTimer + us ≤ 1000 →
      (∀ e, s.part.engine.evaluation = some e → e.age + us < 1000) →
      exec (.cycleFrame .outbound f us orders) s = .next { s with part := { s.part with
        clock := s.part.clock + us
        port := { s.part.port with lossTimer := 0, insertion := [] }
        engine := { s.part.engine with
          evaluation := s.part.engine.evaluation.map (fun e => { e with age := e.age + us }) }
        ringOut := s.part.ringOut ++ s.part.port.insertion.map (fun g => (Pass.outbound, g)) ++ [(.outbound, f)] } }) ∧
    (s.part.port.up = false → (∀ e, s.part.engine.evaluation = some e → e.discard = true) → s.part.engine.queue = [] →
      s.part.commands.queue = [] → s.part.Sized →
      ∃ t, exec (.cycleFrame .outbound f us orders) s = .next t ∧
        t.part.port.up = true ∧ t.part.port.cycle = some (cycleNumber f) ∧ t.part.port.lossTimer = 0 ∧
        t.part.station = s.part.station ∧ t.part.tracker = s.part.tracker ∧ t.part.profile = s.part.profile ∧
        (s.part.engine.evaluation = none → t.part.collector = s.part.collector) ∧
        (∀ e, s.part.engine.evaluation = some e → e.age + us < 1000 → t.part.collector = s.part.collector) ∧
        (∀ e, s.part.engine.evaluation = some e → 1000 ≤ e.age + us → t.part.engine.evaluation = none ∧
          t.part.collector = s.part.collector.set e.station
            { s.part.collector.get e.station with state := .off, job := none, report := .none }) ∧
        t.part.leak = s.part.leak ∧ t.part.router = s.part.router ∧
        t.part.tables = s.part.tables ∧ t.part.reports = s.part.reports ∧
        (t.part.alertAt 20).detail =
          BitVec.ofNat 16 (min ((s.part.clock + us - s.part.port.lossStart) / 1000) 65535) ∧
        (t.part.alertAt 20).report = 0)

/-- CYCLE_FRAME (R27, R38): a good CYCLE frame with d of 1 or more closes the open cycle and, for d up to 20, each skipped
one as an empty cycle, and opens the cycle it names. Over these closes each role record takes the frame of its
lowest-numbered entry that delivered in the cycle that was open; without one it keeps its value; the missing count rises at
each close without a delivery; and every seen flag is clear afterwards. Hypotheses: no deadline lies within the time that
passes, and no command waits (log entry 6; R186). -/
def Obligations.CycleClosesFormRoles : Prop :=
  ∀ (f : Frame) (us : Nat) (orders : List (List Work)) (o : BitVec 32) (s : State),
    (Instr.cycleFrame .outbound f us orders).wellFormed = true → s.part.listening = true → goodCycle f = true →
    s.part.port.up = true → s.part.port.cycle = some o → s.part.port.lossTimer + us ≤ 1000 →
    (∀ e, s.part.engine.evaluation = some e → e.age + us < 1000) → s.part.commands.queue = [] → cycleNumber f ≠ o →
    ∃ t, exec (.cycleFrame .outbound f us orders) s = .next t ∧
      t.part.port.cycle = some (cycleNumber f) ∧ t.part.port.up = true ∧ t.part.port.lossTimer = 0 ∧
      t.part.router.entries = s.part.router.entries.map (fun c => { c with seen := false, frame := none }) ∧
      ∀ (k : Nat) (r : RoleRecord), s.part.router.roles[k]? = some r →
        ∃ r', t.part.router.roles[k]? = some r' ∧ r'.owner = r.owner ∧ r'.role = r.role ∧ r'.skew = r.skew ∧
          r'.source = r.source ∧
          match serving r.owner r.role s.part.router.entries with
          | some x => r'.value = x ∧ r'.missing = closesFor (cycleNumber f - o).toNat - 1 ∧
              (closesFor (cycleNumber f - o).toNat = 1 →
                r'.mark = if x.overloaded then .overload else .present)
          | none => r'.value = r.value ∧ r'.mark = .missing ∧
              r'.missing = min 65535 (r.missing + closesFor (cycleNumber f - o).toNat)

/-- The insertion list (R11, R31, R83): after a good CYCLE frame that opens a new cycle with no command waiting, the list
starts with one SETPOINT frame for each station that is not IDLE, in ascending station number, with the speed, torque limit,
flags and step index that its state then gives, and holds at most four frames more. -/
def Obligations.SetpointFrames : Prop :=
  ∀ (f : Frame) (us : Nat) (orders : List (List Work)) (s t : State),
    s.part.listening = true → goodCycle f = true → s.part.port.up = true → s.part.commands.queue = [] →
    s.part.port.lossTimer + us ≤ 1000 → s.part.port.cycle ≠ some (cycleNumber f) → s.part.port.cycle ≠ none →
    exec (.cycleFrame .outbound f us orders) s = .next t →
    ∃ rest, rest.length ≤ 4 ∧
      t.part.port.insertion = allStations.filterMap (fun st =>
        let e := t.part.profile.get st
        let frame (speed : Int) (limit : Nat) (flags step : Byte) : Option Frame :=
          some (mkFrame kindSetpoint t.part.port.address (t.part.destination (some st) .drive)
            (t.part.cycleNow.setWidth 8) (z24 speed ++ n16 limit ++ [flags, step]))
        match (t.part.station.get st).state with
        | .idle => none
        | .prep => frame 0 0 0 0
        | .running | .finishing | .stopping => frame (e.setpoint.tdiv 64) e.torqueLimit 1 (BitVec.ofNat 8 e.step)
        | .halted => frame 0 0 2 (BitVec.ofNat 8 e.step)) ++ rest

/-- RING_LOSS (R32, R188): the ring becomes LOST with no open cycle; the queues and the insertion list are empty and the
seen flags clear; every active station is HALTED with RING_LOST, whatever the order in which the halts are taken; a station
that is not active keeps its state. -/
def Obligations.RingLossHalts : Prop :=
  ∀ (order : List Stn) (s : State), (Instr.ringLoss order).wellFormed = true → s.part.resetHeld = false →
    s.part.port.up = true →
    ∃ t, exec (.ringLoss order) s = .next t ∧
      t.part.port.up = false ∧ t.part.port.cycle = none ∧ t.part.port.insertion = [] ∧
      t.part.port.lossStart = t.part.clock ∧ t.part.commands = { queue := [], reply := none } ∧
      t.part.router = { s.part.router with
        entries := s.part.router.entries.map (fun c => { c with seen := false, frame := none }) } ∧
      ∀ st, (s.part.activeAt st = true →
          (t.part.station.get st).state = .halted ∧ (t.part.station.get st).haltReason = .ringLost ∧
          (t.part.profile.get st).setpoint = 0) ∧
        (s.part.activeAt st = false → (t.part.station.get st).state = (s.part.station.get st).state)

/-! ## Halts and ends of a test -/

/-- PREP_TIMEOUT, INDEX_TIMER_EXPIRY, STILL_GATES_EXPIRY and an overspeed at SPEED_GATE_COMPLETE (R8, R17, R52, R54, R55,
R172, R174, R175): at its limit each halts the station with its reason, as `Part.HaltedAs` spells out, its report included. -/
def Obligations.StationHalts : Prop :=
  ∀ (st : Stn) (s : State), s.part.online = true → s.part.AirLaw → s.part.Sized →
    ((s.part.station.get st).state = .prep → 2000 ≤ (s.part.station.get st).prepTimer → s.part.prepReady st = false →
      ∃ t, exec (.prepTimeout st) s = .next t ∧ s.part.HaltedAs t.part st .noSignal) ∧
    (s.part.activeAt st = true → (s.part.tracker.get st).tracking = true → 40000 ≤ (s.part.tracker.get st).indexTimer →
      ∃ t, exec (.indexTimerExpiry st) s = .next t ∧ s.part.HaltedAs t.part st .encoderLoss) ∧
    (s.part.activeAt st = true → (s.part.tracker.get st).tracking = true → 100 ≤ (s.part.tracker.get st).stillGates →
      ∃ t, exec (.stillGatesExpiry st) s = .next t ∧ s.part.HaltedAs t.part st .encoderLoss) ∧
    (s.part.activeAt st = true → (s.part.tracker.get st).tracking = true → 200 ≤ (s.part.tracker.get st).gateCount →
      s.part.cell.ceiling + s.part.cell.ceiling / 8 <
        (clampTo 30000 (((s.part.tracker.get st).gateSum * 6000).tdiv ((s.part.tracker.get st).p : Int))).natAbs →
      ∃ t, exec (.speedGateComplete st) s = .next t ∧ s.part.HaltedAs t.part st .overspeed)

/-- The angle tracker. SPEED_GATE_COMPLETE (R53, R54): the measured speed is the gate sum times 6,000 over P, rounded toward zero
and clamped to 30,000; the still-gates count rises, to at most 100, when no edge came while the setpoint in force was at least
60 rpm, and is 0 otherwise; count and sum start again. Below the overspeed limit nothing else changes. CYCLE_FRAME (R45 to R49,
R51 to R54): at the close of a cycle a TRACKING tracker takes the counts of its station's TACH role, if an entry of the role
delivered, and otherwise keeps them, as `Tracker.Reads` and `Tracker.Misses` spell out, and its index timer and speed gate count
as `Tracker.Counts` spells out, whatever the order of the works of the close. If the station leaves the active states at that
close the tracker is STOPPED. Hypotheses: no deadline lies within the time that passes, and no command waits (log entry 6; R186). -/
def Obligations.SpeedGateMeasures : Prop :=
  (∀ (st : Stn) (s : State), s.part.online = true → (s.part.tracker.get st).tracking = true →
    200 ≤ (s.part.tracker.get st).gateCount →
    let x := s.part.tracker.get st
    let v := clampTo 30000 ((x.gateSum * 6000).tdiv (x.p : Int))
    v.natAbs ≤ s.part.cell.ceiling + s.part.cell.ceiling / 8 →
    exec (.speedGateComplete st) s = .next { s with part := { s.part with
      tracker := s.part.tracker.set st { x with
        speed := some v
        stillGates := if x.gateSum = 0 ∧ 61440 ≤ (s.part.profile.get st).inForce.natAbs then satSucc 100 x.stillGates else 0
        gateCount := 0, gateSum := 0 } } }) ∧
  (∀ (f : Frame) (us : Nat) (orders : List (List Work)) (o : BitVec 32) (st : Stn) (r : RoleRecord) (s : State),
    s.Closes f us orders o → (s.part.tracker.get st).tracking = true → s.part.roleAt st .tach = some r →
    ∃ t, exec (.cycleFrame .outbound f us orders) s = .next t ∧ ((t.part.tracker.get st).tracking = true →
      let x := s.part.tracker.get st
      let y := t.part.tracker.get st
      (∀ edges index latched, serving (some st) .tach s.part.router.entries = some (.tach edges index latched) →
        x.Reads y edges index latched o ∧ x.Counts y (x.changeTo edges) (s.part.profile.get st).setpoint) ∧
      (serving (some st) .tach s.part.router.entries = none →
        x.Misses y o ∧ x.Counts y 0 (s.part.profile.get st).setpoint)))

/-- PREP. PREP_TO_RUNNING (R7, R59): a station in PREP whose live runs are all 20 and whose DRIVE role was delivered with its
ready flag set enters RUNNING, and its executor begins step 0; no other station changes. CYCLE_FRAME (R7, R8): at the close of a
cycle each role of the required set that an entry delivered adds one to its live run, to at most 20, and the others return to 0.
When all are 20 and the DRIVE role's frame shows ready the station enters RUNNING at step 0; otherwise it stays in PREP with the
PREP timer one higher, and halts when the timer reaches 2,000. Hypotheses of the close: no deadline lies within the time that
passes, no command waits (log entry 6; R186), the required roles are in the map, and no other cause halted the station at that
close. -/
def Obligations.PrepToRunning : Prop :=
  (∀ (st : Stn) (r : RoleRecord) (s : State), s.part.online = true → (s.part.station.get st).state = .prep →
    (∀ n ∈ (s.part.station.get st).live, n = 20) → s.part.roleRecord (some st) .drive = some r →
    r.mark ≠ .missing → r.value.driveReady = true →
    ∃ t, exec (.prepToRunning st) s = .next t ∧ (t.part.station.get st).state = .running ∧
      (t.part.profile.get st).step = 0 ∧ (t.part.profile.get st).stepTimer = 0 ∧
      (t.part.profile.get st).remainder = 0 ∧
      (t.part.station.get st).counters.steps = satSucc 65535 (s.part.station.get st).counters.steps ∧
      ∀ st', st' ≠ st → t.part.station.get st' = s.part.station.get st' ∧ t.part.profile.get st' = s.part.profile.get st') ∧
  (∀ (f : Frame) (us : Nat) (orders : List (List Work)) (o : BitVec 32) (st : Stn) (s : State), s.Closes f us orders o →
    (s.part.station.get st).state = .prep →
    (∀ role ∈ .drive :: (s.part.station.get st).required, s.part.roleAt st role ≠ none) →
    let x := s.part.station.get st
    let delivered (role : Role) : Option Sample := serving (roleOwner st role) role s.part.router.entries
    let live := List.zipWith (fun role n => if (delivered role).isSome then satSucc 20 n else 0) x.required x.live
    let ready : Prop := (∀ n ∈ live, n = 20) ∧ ∃ v, delivered .drive = some v ∧ v.driveReady = true
    ∃ t, exec (.cycleFrame .outbound f us orders) s = .next t ∧
      (¬ready → 1999 ≤ x.prepTimer → (t.part.station.get st).state = .halted) ∧
      (t.part.activeAt st = true →
        (ready → (t.part.station.get st).state = .running ∧ (t.part.profile.get st).step = 0 ∧
          (t.part.profile.get st).stepTimer = 0 ∧ (t.part.profile.get st).remainder = 0) ∧
        (¬ready → (t.part.station.get st).state = .prep ∧ (t.part.station.get st).live = live ∧
          (t.part.station.get st).prepTimer = x.prepTimer + 1)))

/-- FINISHING_END and STOPPING_END (R10, R15, R44, R172, R174, R175, R178): with setpoint 0, a measured speed below 5 rpm, the
leak sequencer IDLE and the collector not EVALUATING the test ends in IDLE with its check list finished and its tracker STOPPED;
its report carries COMPLETE, EARLY_STOP or ABORTED, the verdict by the tests of R174 in their order, and the fields of R175, and
REPORT_READY is pending. -/
def Obligations.TestEnds : Prop :=
  ∀ (st : Stn) (v : Int) (s : State), s.part.online = true → s.part.Sized → (s.part.profile.get st).setpoint = 0 →
    (s.part.tracker.get st).speed = some v → v.natAbs < 5 → (s.part.leak.get st).phase = .idle →
    (s.part.collector.get st).state ≠ .evaluating →
    ((s.part.station.get st).state = .finishing →
      ∃ t, exec (.finishingEnd st) s = .next t ∧
        s.part.EndedAs t.part st (if (s.part.station.get st).earlyStop then .earlyStop else .complete)) ∧
    ((s.part.station.get st).state = .stopping →
      ∃ t, exec (.stoppingEnd st) s = .next t ∧ s.part.EndedAs t.part st .aborted)

/-! ## Run-in profiles -/

/-- HOLD_END (R66, R67, R68): when the step timer has reached the duration, the step ends and its torque check is made. With torque
summed, the mean, rounded toward zero, is judged against the check's bounds: the line's evaluations rise, to at most 255, its
reason is NONE, and it is FAIL exactly when the mean lies outside the bounds or it was FAIL before, and PASS otherwise; the mean
farthest from the middle of the bounds is the worst value, and the bound on its side the limit. That a FAIL line with reason SIGNAL
then takes NONE, as R67 says, and not keeps its reason, as R169 does, is the model's choice (DESIGN CHOICE, log entry 28). With no
torque summed the line's reason becomes SIGNAL and the rest of it stays. Lines of other ids stay. -/
def Obligations.HoldEnds : Prop :=
  ∀ (st : Stn) (duration limit : Nat) (k : TorqueCheck) (s : State), s.part.online = true →
    (s.part.station.get st).state = .running → s.part.currentStep st = some (.hold duration limit (some k)) →
    20 * duration ≤ (s.part.profile.get st).stepTimer →
    let mean := (s.part.profile.get st).torqueSum.tdiv ((s.part.profile.get st).torqueCount : Int)
    let distance (v : Int) : Nat := (2 * v - k.minimum - k.maximum).natAbs
    ∃ t, exec (.holdEnd st) s = .next t ∧ s.part.StepEnded t.part st ((s.part.profile.get st).step + 1) ∧
      (t.part.station.get st).lines.length = (s.part.station.get st).lines.length ∧
      ∀ (i : Nat) (l : CheckLine), (s.part.station.get st).lines[i]? = some l →
        ∃ l', (t.part.station.get st).lines[i]? = some l' ∧ (l.id ≠ k.id → l' = l) ∧
          (l.id = k.id → (s.part.profile.get st).torqueCount = 0 → l' = { l with reason := .signal }) ∧
          (l.id = k.id → (s.part.profile.get st).torqueCount ≠ 0 →
            l'.evaluations = satSucc 255 l.evaluations ∧ l'.reason = .none ∧
            l'.outcome = (if mean < k.minimum ∨ k.maximum < mean ∨ l.outcome = .fail then .fail else .pass) ∧
            l'.worst = (if l.evaluations = 0 ∨ distance l.worst < distance mean then mean else l.worst) ∧
            l'.limit = (if k.minimum + k.maximum ≤ 2 * l'.worst then k.maximum else k.minimum) ∧
            l'.id = l.id ∧ l'.family = l.family ∧ l'.grade = l.grade)

/-- The ends of a step. The rows (R13, R60, R70 to R74): a rung that is the ladder's last, because no move is left or because it
stands at a boundary in STOP mode, ends a LADDER step when its dwell count or its measurement is done, a step report ends a NOISE
step, and an IDLE leak sequencer ends a WAIT_LEAK step and a LEAK step in WAIT mode that has started; a step without a torque
check ends a HOLD at its duration. The executor begins the next step, or the station enters STOPPING when an AT_STEP_END abort is
pending. CYCLE_FRAME (R9, R60, R75 to R79): at the close of a cycle a REPEAT with count 0 turns to the step after its END_REPEAT,
and with another count pushes its loop frame and turns to its body; an END_REPEAT lowers its frame's count and turns back, or
pops the frame and goes on; an EXIT_IF_FAILED pops its frame and turns to the step after the loop when a MUST line is FAIL, and
goes on otherwise; a STOP_IF_REJECTED ends the profile early when a MUST line is FAIL, and goes on otherwise; a FINISH ends it. The
loop stack is otherwise kept; an abort pending at the step's end makes it STOPPING instead. Hypotheses of the close: no deadline lies
within the time that passes, no command waits (log entry 6; R186), no halt came at that close, and the check list is read before
the sequencer's work of the close may write it (R80). -/
def Obligations.StepsEnd : Prop :=
  (∀ (st : Stn) (s : State), s.part.online = true → (s.part.station.get st).state = .running →
    let e := s.part.profile.get st
    (∀ start up rate limit moves wrap dwell measure budget,
      s.part.currentStep st = some (.ladder start up rate limit moves wrap dwell measure budget) →
      e.movesLeft = 0 ∨ (wrap = false ∧ ((up = true ∧ 15 ≤ e.rung) ∨ (up = false ∧ e.rung = 0))) →
      (e.rungPhase = .dwell → 20 * dwell ≤ e.dwellCount →
        ∃ t, exec (.rungDwellDone st) s = .next t ∧ s.part.StepEnded t.part st (e.step + 1)) ∧
      (e.rungPhase = .measure → (s.part.collector.get st).report ≠ .none →
        ∃ t, exec (.rungMeasureDone st) s = .next t ∧ s.part.StepEnded t.part st (e.step + 1))) ∧
    (∀ windows budget quiet limit settle, s.part.currentStep st = some (.noise windows budget quiet limit settle) →
      (s.part.collector.get st).report ≠ .none →
      ∃ t, exec (.noiseStepEnd st) s = .next t ∧ s.part.StepEnded t.part st (e.step + 1)) ∧
    ((s.part.currentStep st = some .waitLeak ∨
        (∃ w, s.part.currentStep st = some (.leak w false) ∧ e.leakStarted = true)) →
      (s.part.leak.get st).phase = .idle →
      ∃ t, exec (.waitLeakEnd st) s = .next t ∧ s.part.StepEnded t.part st (e.step + 1)) ∧
    (∀ duration limit, s.part.currentStep st = some (.hold duration limit none) → 20 * duration ≤ e.stepTimer →
      ∃ t, exec (.holdEnd st) s = .next t ∧ s.part.StepEnded t.part st (e.step + 1) ∧
        (t.part.station.get st).lines = (s.part.station.get st).lines)) ∧
  (∀ (f : Frame) (us : Nat) (orders : List (List Work)) (o : BitVec 32) (st : Stn) (s : State), s.Closes f us orders o →
    (s.part.station.get st).state = .running →
    let e := s.part.profile.get st
    let step := s.part.currentStep st
    let rejects : Prop := ∃ l ∈ (s.part.station.get st).lines, l.grade = .must ∧ l.outcome = .fail
    ∃ t, exec (.cycleFrame .outbound f us orders) s = .next t ∧ (t.part.activeAt st = true →
      let x := t.part.profile.get st
      let turns (next : Nat) (loops : List LoopFrame) : Prop :=
        s.part.StepTurned t.part st next ∧ x.setpoint = e.setpoint ∧ (e.pendingAbort = false → x.loops = loops)
      (∀ last, step = some (.repeatLoop 0) → Encloses (s.part.profileTable st) e.step last → turns (last + 1) e.loops) ∧
      (∀ n last, step = some (.repeatLoop n) → n ≠ 0 → Encloses (s.part.profileTable st) e.step last →
        turns (e.step + 1) ({ firstBody := e.step + 1, endIndex := last, remaining := n } :: e.loops)) ∧
      (∀ k rest, step = some .endRepeat → e.loops = k :: rest →
        (1 < k.remaining → turns k.firstBody ({ k with remaining := k.remaining - 1 } :: rest)) ∧
        (k.remaining ≤ 1 → turns (e.step + 1) rest)) ∧
      (s.part.ReadsLinesFirst orders st →
        (∀ k rest, step = some .exitIfFailed → e.loops = k :: rest →
          (rejects → turns (k.endIndex + 1) rest) ∧ (¬rejects → turns (e.step + 1) e.loops)) ∧
        (step = some .stopIfRejected →
          (rejects → s.part.ProfileEnded t.part st true) ∧ (¬rejects → turns (e.step + 1) e.loops))) ∧
      (step = some .finish → s.part.ProfileEnded t.part st false)))

/-- LADDER_NEXT_MOVE (R69, R70, R71): a done rung with moves left and no boundary that stops it lowers the moves left and
starts the next rung, up or down and wrapping at the ends: its target is the rung's speed clamped to the ceiling, and its
phase RAMP. A measurement that was exhausted marks the step's measurements spent. -/
def Obligations.LadderMovesOn : Prop :=
  ∀ (st : Stn) (start : Nat) (up : Bool) (rate limit moves : Nat) (wrap : Bool) (dwell : Nat) (measure : Bool)
    (budget : Nat) (s : State), s.part.online = true → (s.part.station.get st).state = .running →
    s.part.currentStep st = some (.ladder start up rate limit moves wrap dwell measure budget) →
    let e := s.part.profile.get st
    e.movesLeft ≠ 0 → e.rung ≤ 15 → (wrap = true ∨ (up = true ∧ e.rung ≠ 15) ∨ (up = false ∧ e.rung ≠ 0)) →
    let next := if up then (if e.rung = 15 then 0 else e.rung + 1) else (if e.rung = 0 then 15 else e.rung - 1)
    let moved (t : State) : Prop :=
      (t.part.profile.get st).step = e.step ∧ (t.part.profile.get st).rung = next ∧
      (t.part.profile.get st).movesLeft = e.movesLeft - 1 ∧ (t.part.profile.get st).rungPhase = .ramp ∧
      (t.part.profile.get st).remainder = 0 ∧ (t.part.station.get st).state = .running ∧
      (t.part.profile.get st).target =
        clampTo s.part.cell.ceiling (profileRung (s.part.profileTable st) next) * 1024
    (e.rungPhase = .dwell → 20 * dwell ≤ e.dwellCount → ∃ t, exec (.rungDwellDone st) s = .next t ∧ moved t) ∧
    (e.rungPhase = .measure → (s.part.collector.get st).report ≠ .none →
      ∃ t, exec (.rungMeasureDone st) s = .next t ∧ moved t ∧ (t.part.collector.get st).report = .none ∧
        (t.part.profile.get st).measureSpent =
          (e.measureSpent || decide ((s.part.collector.get st).report = .exhausted)))

/-- Ramps. REVERSAL_DWELL_END (R63, R64): a ramp that stands at setpoint 0 with a target of the other sign than the last one
makes its first move when the zero run has reached the reversal dwell: the remainder takes rate times 1,024 and the setpoint
moves by the whole part over 20,000 toward the target. The move falls short of the target; nothing else changes. CYCLE_FRAME
(R61, R63, R64, R65, R69, R81): at the close of a cycle the setpoint becomes the one in force for it, and the zero run and the last
sign count it. A RAMP step, and a rung of a LADDER step in its phase RAMP, move as `Executor.RampsTo` spells out: away from the
target nothing else of the executor changes; at the target the RAMP step ends. In FINISHING and STOPPING the setpoint makes one
move toward 0 at the stop ramp, with no dwell. Hypotheses of the close: no deadline lies within the time that passes, no command
waits (log entry 6; R186), and what is said of the step is said while no halt and no end of the test came at that close. -/
def Obligations.ReversalMoves : Prop :=
  (∀ (st : Stn) (rate : Nat) (s : State), s.part.online = true → (s.part.station.get st).state = .running →
      let e := s.part.profile.get st
      ((∃ target limit, s.part.currentStep st = some (.ramp target rate limit)) ∨
        (∃ start up limit moves wrap dwell measure budget,
          s.part.currentStep st = some (.ladder start up rate limit moves wrap dwell measure budget) ∧
          e.rungPhase = .ramp)) →
      e.setpoint = 0 → ((0 < e.target ∧ e.lastSign = .reverse) ∨ (e.target < 0 ∧ e.lastSign = .forward)) →
      20 * s.part.cell.dwell ≤ e.zeroRun →
      let move := (e.remainder + rate * 1024) / 20000
      move < e.target.natAbs →
      exec (.reversalDwellEnd st) s = .next { s with part := { s.part with
        profile := s.part.profile.set st { e with
          setpoint := if 0 < e.target then (move : Int) else -(move : Int)
          remainder := (e.remainder + rate * 1024) % 20000 } } }) ∧
  (∀ (f : Frame) (us : Nat) (orders : List (List Work)) (o : BitVec 32) (st : Stn) (s : State), s.Closes f us orders o →
    ∃ t, exec (.cycleFrame .outbound f us orders) s = .next t ∧
      let e := s.part.profile.get st
      let x := t.part.profile.get st
      x.inForce = e.setpoint ∧
      ((s.part.station.get st).state = .running → t.part.activeAt st = true →
        ∀ rate, ((∃ target limit, s.part.currentStep st = some (.ramp target rate limit)) ∨
            (∃ start up limit moves wrap dwell measure budget,
              s.part.currentStep st = some (.ladder start up rate limit moves wrap dwell measure budget) ∧
              e.rungPhase = .ramp)) →
          ∃ v r, e.RampsTo rate (20 * s.part.cell.dwell) v r ∧ x.setpoint = v ∧
            x.zeroRun = e.counted.zeroRun ∧ x.lastSign = e.counted.lastSign ∧
            (v ≠ e.target → (t.part.station.get st).state = .running ∧ x = { e.counted with setpoint := v, remainder := r }) ∧
            (v = e.target → ∀ target limit, s.part.currentStep st = some (.ramp target rate limit) →
              s.part.StepTurned t.part st (e.step + 1))) ∧
      ((s.part.station.get st).state = .finishing ∨ (s.part.station.get st).state = .stopping →
        (t.part.station.get st).state = (s.part.station.get st).state →
        ∃ v r, e.MovesTo s.part.cell.stopRamp 0 v r ∧ x = { e.counted with setpoint := v, remainder := r }))

/-- LEAK_SEQUENCE_START (R73, R124, R126, R127): a LEAK step that has not started finds its sequencer IDLE: the sequencer
takes the leak with its durations in ring cycles and its counts at 0, and joins the tail of the manifold queue. While a grant
is held, the purge runs or a quiet holder exists it waits there; otherwise the head of the queue, the station itself when the
queue was empty, is granted at once and leaves the queue. In OVERLAP mode the step ends, in WAIT mode it stays. -/
def Obligations.LeakSequenceStarts : Prop :=
  ∀ (st : Stn) (w : Which) (overlap : Bool) (s : State), s.part.online = true →
    (s.part.station.get st).state = .running → s.part.currentStep st = some (.leak w overlap) →
    (s.part.profile.get st).leakStarted = false → (s.part.profile.get st).pendingAbort = false →
    (s.part.leak.get st).phase = .idle → s.part.AirLaw →
    let r := s.part.leakRecord st w
    ∃ t, exec (.leakSequenceStart st) s = .next t ∧
      (t.part.leak.get st).which = some w ∧ (t.part.leak.get st).copy =
        { r with fillTimeout := 20 * r.fillTimeout, settle := 20 * r.settle, measure := 20 * r.measure,
                 vent := 20 * r.vent } ∧
      (t.part.leak.get st).waitCount = 0 ∧ (t.part.leak.get st).measureCount = 0 ∧ (t.part.leak.get st).defects = 0 ∧
      (s.part.manifold.holder ≠ none ∨ s.part.manifold.purging = true ∨ s.part.manifold.quiet ≠ [] →
        (t.part.leak.get st).phase = .queued ∧ t.part.manifold.queue = s.part.manifold.queue ++ [st] ∧
        t.part.manifold.holder = s.part.manifold.holder) ∧
      (s.part.manifold.holder = none → s.part.manifold.purging = false → s.part.manifold.quiet = [] →
        ∀ head rest, s.part.manifold.queue ++ [st] = head :: rest →
          t.part.manifold.holder = some head ∧ t.part.manifold.queue = rest ∧ (t.part.leak.get head).phase = .fill ∧
          (head ≠ st → (t.part.leak.get st).phase = .queued)) ∧
      (s.part.manifold.queue = [] → s.part.manifold.holder = none → s.part.manifold.purging = false →
        s.part.manifold.quiet = [] → (t.part.leak.get st).phase = .fill) ∧
      (overlap = true → s.part.StepEnded t.part st ((s.part.profile.get st).step + 1)) ∧
      (overlap = false → (t.part.profile.get st).leakStarted = true ∧
        (t.part.profile.get st).step = (s.part.profile.get st).step)

/-! ## Noise windows and their evaluation -/

/-- COLLECTOR_SETTLE_END (R86): when the settle count is not below the job's settle cycles the collector enters ARMED with
window timer 0 and a cleared window; its job, budget and evaluated count stay, and so does every other block. -/
def Obligations.CollectorSettles : Prop :=
  ∀ (st : Stn) (j : Job) (s : State), s.part.online = true → (s.part.collector.get st).state = .settling →
    (s.part.collector.get st).job = some j → j.settle ≤ (s.part.collector.get st).settleCount →
    ∃ c, exec (.collectorSettleEnd st) s =
        .next { s with part := { s.part with collector := s.part.collector.set st c } } ∧
      c.state = .armed ∧ c.windowTimer = 0 ∧ c.job = some j ∧ c.budget = (s.part.collector.get st).budget ∧
      c.evaluated = (s.part.collector.get st).evaluated ∧ c.placed = 0 ∧ c.defects = 0 ∧ c.lengths = [] ∧
      c.firstBoundary = none ∧ c.latestBoundary = none ∧ c.revolutionsDone = 0 ∧
      ∀ ch ∈ s.part.binned st, (c.channels.get ch).sums = List.replicate 256 0 ∧
        (c.channels.get ch).counts = List.replicate 256 0 ∧ (c.channels.get ch).averages = List.replicate 256 0

/-- WINDOW_START (R87, R88, R89, R145): an ARMED collector starts its window when the setpoint in force is at least 60 rpm,
the latest gate is steady, no air event is in progress and INDEX was not reported, and, for a quiet window, the deferred list
is empty; the station of a quiet window then becomes a quiet holder. The samples of a window (R90, R91, R92, R93, R94, R96): a close
after which the collector of an active station is still in the attempt, so no DISTURBED and no other end of it, has classed the
samples of the cycle, placed the current ones, counted the defects, and closed the open revolution or ended the lead-in where a sample
is newer, as the rules give; where newer samples name more than one revolution, the lowest-numbered channel's is taken (log entry
12), and a station without a binned channel takes the classes of its entry (log entry 13). -/
def Obligations.WindowStarts : Prop :=
  (∀ (st : Stn) (j : Job) (m : Int) (s : State), s.part.online = true → (s.part.collector.get st).state = .armed →
    (s.part.collector.get st).job = some j → (s.part.tracker.get st).speed = some m →
    let inForce := (s.part.profile.get st).inForce
    60 * 1024 ≤ inForce.natAbs →
    (m - inForce.tdiv 1024).natAbs * 100 ≤ (s.part.variantAt st).tolerance * (inForce.tdiv 1024).natAbs →
    s.part.airEvent = false → (s.part.tracker.get st).indexReport = false →
    (j.quiet = true → s.part.manifold.deferred = []) →
    ∃ c, exec (.windowStart st) s = .next { s with part := { s.part with
        collector := s.part.collector.set st c
        manifold := if j.quiet then { s.part.manifold with quiet := s.part.manifold.quiet ++ [st] }
          else s.part.manifold } } ∧
      c.state = .collecting ∧ c.leadIn = true ∧ c.direction = .none ∧ c.firstBoundary = none ∧
      c.latestBoundary = none ∧ c.revolutionsDone = 0 ∧ c.lengths = [] ∧ c.placed = 0 ∧ c.defects = 0 ∧
      c.windowTimer = (s.part.collector.get st).windowTimer ∧ c.job = some j) ∧
  (∀ (f : Frame) (us : Nat) (orders : List (List Work)) (o : BitVec 32) (st : Stn) (s : State), s.Closes f us orders o →
    let c := s.part.collector.get st
    c.state = .collecting → (s.part.station.get st).counters.disturbed < 65535 →
    (∀ ch, (c.channels.get ch).sums.length = 256 ∧ (c.channels.get ch).counts.length = 256 ∧
      (c.channels.get ch).averages.length = 256) →
    ∃ t, exec (.cycleFrame .outbound f us orders) s = .next t ∧
      let d := t.part.collector.get st
      let q := t.part.tracker.get st
      let now := q.history.find? (fun e => decide (e.cycle = o))
      (t.part.activeAt st = true → q.tracking = true → d.state = .collecting →
        (t.part.station.get st).counters.disturbed = (s.part.station.get st).counters.disturbed →
        c.ClosesTo (s.part.variantAt st)
          (allStations.filter (fun ch => decide (vibRole ch ∈ (s.part.station.get st).required))) o
          (s.part.samplesAt q o st) now d ∧
        d.direction = directionAfter c.direction now))

/-- WINDOW_COMPLETE (R95, R96, R98, R99, R107, R108): the tests of a window whose revolutions have reached the depth, in their
order. INDEX: the tracker reported INDEX at this close. DIRECTION: the entry for the cycle just closed is valid and turns against
the window's direction. UNSTEADY: some revolution's length strays from the mean of the total by more than the tolerance. DEFECT:
more than one sixty-fourth of the placed count are defects. The first that fails ends the attempt with its cause. A window that
passes all is valid: it is counted and numbered, its averaged waveforms are the accumulators over the depth, rounded down, its
speed is depth times 1,200,000 over its total, with the sign of its direction, its station leaves the quiet holders, and it
joins the analysis queue or is taken by a FREE engine. A window speed over a total of 0 is a free value (log entry 10), and that
an exhausted collector has no job is the model's reading (DEDUCED, log entry 27). -/
def Obligations.WindowValid : Prop :=
  ∀ (st : Stn) (a b : BitVec 32) (s : State), s.part.online = true → s.part.Sized →
    (s.part.collector.get st).state = .collecting → (s.part.collector.get st).firstBoundary = some a →
    (s.part.collector.get st).latestBoundary = some b →
    (s.part.variantAt st).depth ≤ (s.part.collector.get st).revolutionsDone →
    let c := s.part.collector.get st
    let v := s.part.variantAt st
    let total := (b - a).toNat
    let now := (s.part.tracker.get st).entryFor s.part.cycleNow
    let turned : Prop := ∃ e, now = some e ∧ e.valid = true ∧ e.direction ≠ .none ∧ c.direction ≠ .none ∧
      e.direction ≠ c.direction
    let strayed : Prop := ∃ l ∈ c.lengths, v.tolerance * total < ((l : Int) * (v.depth : Int) - (total : Int)).natAbs * 100
    let index := (s.part.tracker.get st).indexReport
    (∀ cause, (index = true ∧ cause = .index) ∨ (index = false ∧ turned ∧ cause = .direction) ∨
        (index = false ∧ ¬turned ∧ strayed ∧ cause = .unsteady) ∨
        (index = false ∧ ¬turned ∧ ¬strayed ∧ c.placed / 64 < c.defects ∧ cause = .defect) →
      ∃ t, exec (.windowComplete st) s = .next t ∧ s.part.AttemptEnded t.part st cause) ∧
    (index = false → ¬turned → ¬strayed → c.defects ≤ c.placed / 64 →
      ∃ t, exec (.windowComplete st) s = .next t ∧ (t.part.collector.get st).state = .evaluating ∧
        (t.part.station.get st).counters.valid = satSucc 65535 (s.part.station.get st).counters.valid ∧
        (t.part.collector.get st).windowNumber = satSucc 65535 (s.part.station.get st).counters.valid ∧
        (total ≠ 0 → (t.part.collector.get st).windowSpeed =
          (if c.direction = .reverse then -((v.depth * 1200000 / total : Nat) : Int)
            else ((v.depth * 1200000 / total : Nat) : Int))) ∧
        (∀ ch ∈ s.part.binned st, ((t.part.collector.get st).channels.get ch).waveform =
          (c.channels.get ch).averages.map (fun x => x / (v.depth : Int))) ∧
        st ∉ t.part.manifold.quiet ∧
        (s.part.engine.evaluation ≠ none →
          t.part.engine.queue = s.part.engine.queue ++ [st] ∧ t.part.engine.evaluation = s.part.engine.evaluation) ∧
        (s.part.engine.evaluation = none → s.part.engine.queue = [] →
          t.part.engine.queue = [] ∧ ∃ e, t.part.engine.evaluation = some e ∧ e.station = st ∧ e.discard = false))

/-- WINDOW_OVERTIME (R96, R98, R192): an attempt that is not complete when the window timer has reached the window time limit
ends with OVERTIME. With budget left the collector is ARMED again with one retry less and timer 0; without, it is OFF and
EXHAUSTED, and RETRIES_EXHAUSTED is pending with the step index; that it then has no job is the model's reading (DEDUCED, log
entry 27). -/
def Obligations.WindowOvertime : Prop :=
  ∀ (st : Stn) (s : State), s.part.online = true → s.part.Sized →
    let c := s.part.collector.get st
    (c.state = .armed ∨ (c.state = .collecting ∧ c.revolutionsDone < (s.part.variantAt st).depth)) →
    20 * (s.part.variantAt st).timeLimit ≤ c.windowTimer →
    ∃ t, exec (.windowOvertime st) s = .next t ∧ s.part.AttemptEnded t.part st .overtime

/-- ANALYSIS_TAKE and EVALUATION_END (R100, R108, R109, R111): a FREE engine takes the oldest entry and nothing else changes.
At the end of an evaluation without the discard mark the evaluated count rises, and the collector is OFF with DONE at its
job's target and ARMED with window timer 0 before; with the discard mark no check line changes and the collector is OFF with
no report. The engine then holds the next queued window, or is FREE. That a collector in OFF has no job is the model's reading
(DEDUCED, log entry 27). -/
def Obligations.EngineTurns : Prop :=
  (∀ (st : Stn) (rest : List Stn) (s : State), s.part.resetHeld = false → s.part.engine.evaluation = none →
    s.part.engine.queue = st :: rest →
    exec .analysisTake s = .next { s with part := { s.part with engine :=
      { queue := rest, evaluation := some
          { station := st, number := (s.part.collector.get st).windowNumber,
            speed := (s.part.collector.get st).windowSpeed, discard := false, age := 0 } } } }) ∧
  (∀ (e : Evaluation) (s : State), s.part.resetHeld = false → s.part.engine.evaluation = some e →
    ∃ t, exec .evaluationEnd s = .next t ∧
      t.part.engine.queue = s.part.engine.queue.drop 1 ∧
      t.part.engine.evaluation.map Evaluation.station = s.part.engine.queue.head? ∧
      (e.discard = false → ∀ j, (s.part.collector.get e.station).job = some j →
        (t.part.collector.get e.station).evaluated = (s.part.collector.get e.station).evaluated + 1 ∧
        (j.target ≤ (s.part.collector.get e.station).evaluated + 1 →
          (t.part.collector.get e.station).state = .off ∧ (t.part.collector.get e.station).report = .done ∧
          (t.part.collector.get e.station).job = none) ∧
        ((s.part.collector.get e.station).evaluated + 1 < j.target →
          (t.part.collector.get e.station).state = .armed ∧ (t.part.collector.get e.station).windowTimer = 0 ∧
          (t.part.collector.get e.station).job = some j)) ∧
      (e.discard = true → t.part.station = s.part.station ∧ (t.part.collector.get e.station).state = .off ∧
        (t.part.collector.get e.station).report = .none ∧ (t.part.collector.get e.station).job = none ∧
        (t.part.collector.get e.station).evaluated = (s.part.collector.get e.station).evaluated))

/-- The noise lines of an evaluation (R113, R114, R115, R118, R119, R120): with every check id carried by one entry of the limit
table, the line of an entry in band at the window speed takes the entry's metric on its channel's averaged waveform, the amplitude
or the level as the rules compute it: it is FAIL exactly when the metric is above its limit or it was FAIL before, its reason is
NONE, its evaluations rise, and a larger metric, or the first, becomes the worst value with the window's speed and number. The line
of an entry out of band, and a line that no entry names, stays as it is. The sine table holds the symmetries, the bounds and the
worked entries of R113. -/
def Obligations.NoiseLinesJudged : Prop :=
  (∀ (e : Evaluation) (s : State), s.part.resetHeld = false → s.part.engine.evaluation = some e → e.discard = false →
    let entries := s.part.limitEntries e.station
    (entries.map LimitEntry.checkId).Nodup →
    ∃ t, exec .evaluationEnd s = .next t ∧
      ∀ (i : Nat) (l : CheckLine), (s.part.station.get e.station).lines[i]? = some l →
        ∃ l', (t.part.station.get e.station).lines[i]? = some l' ∧
          ((∀ x ∈ entries, x.checkId = l.id → ¬(x.low ≤ e.speed ∧ e.speed ≤ x.high)) → l' = l) ∧
          (∀ x ∈ entries, x.checkId = l.id → x.low ≤ e.speed → e.speed ≤ x.high →
            let wave := ((s.part.collector.get e.station).channels.get x.channel).waveform
            ∃ value : Nat, (wave.length = 256 → x.Measures wave value) ∧
              l'.evaluations = satSucc 255 l.evaluations ∧ l'.reason = .none ∧
              l'.outcome = (if l.limit < (value : Int) ∨ l.outcome = .fail then .fail else .pass) ∧
              (l.evaluations = 0 ∨ l.worst < (value : Int) →
                l'.worst = value ∧ l'.speedAtWorst = e.speed ∧ l'.windowAtWorst = e.number) ∧
              (l.evaluations ≠ 0 → (value : Int) ≤ l.worst →
                l'.worst = l.worst ∧ l'.speedAtWorst = l.speedAtWorst ∧ l'.windowAtWorst = l.windowAtWorst))) ∧
  (∀ i, i < 256 → cosine i = sine ((i + 64) % 256) ∧ -32767 ≤ sine i ∧ sine i ≤ 32767) ∧
  (∀ i, 1 ≤ i → i ≤ 127 → sine (128 - i) = sine i ∧ sine (256 - i) = -sine i) ∧
  [0, 16, 32, 48, 64, 128, 192].map sine = [0, 12539, 23170, 30273, 32767, 0, -32767]

/-! ## Leak testing and the air manifold -/

/-- MANIFOLD_GRANT (R127, R143, R144): the head of the queue is granted when no grant, no purge and no quiet holder stands in the
way: it holds the grant, is in FILL with timer and closes at 0 and off the deferred list, and every collector that is
COLLECTING a window that is not quiet ends its attempt with DISTURBED, while the others stay as they are. When only quiet holders
stand in the way, the head is entered at the tail of the deferred list with GRANT and its deferral count rises; nothing else
changes, and nothing at all when it stands on the list already. With an empty queue, a grant held or the purge running, nothing
changes. -/
def Obligations.ManifoldGrants : Prop :=
  (∀ (st : Stn) (rest : List Stn) (s : State), s.part.resetHeld = false → s.part.manifold.queue = st :: rest →
    s.part.manifold.holder = none → s.part.manifold.purging = false → s.part.manifold.quiet = [] →
    ∃ t, exec .manifoldGrant s = .next t ∧ t.part.manifold.holder = some st ∧ t.part.manifold.queue = rest ∧
      (t.part.leak.get st).phase = .fill ∧ (t.part.leak.get st).fillTimer = 0 ∧ (t.part.leak.get st).fillCloses = 0 ∧
      (∀ w, (st, w) ∉ t.part.manifold.deferred) ∧ (∀ st', st' ≠ st → t.part.leak.get st' = s.part.leak.get st') ∧
      ∀ st', let c := s.part.collector.get st'
        (c.state = .collecting ∧ (∀ j, c.job = some j → j.quiet = false) →
          (t.part.collector.get st').state ≠ .collecting ∧ (t.part.station.get st').counters.disturbed =
            satSucc 65535 (s.part.station.get st').counters.disturbed) ∧
        (c.state ≠ .collecting ∨ (∃ j, c.job = some j ∧ j.quiet = true) →
          t.part.collector.get st' = c ∧ t.part.station.get st' = s.part.station.get st')) ∧
  (∀ (st : Stn) (rest : List Stn) (s : State), s.part.resetHeld = false → s.part.manifold.queue = st :: rest →
    s.part.manifold.holder = none → s.part.manifold.purging = false → s.part.manifold.quiet ≠ [] →
    ((∀ w, (st, w) ∉ s.part.manifold.deferred) →
      let x := s.part.station.get st
      exec .manifoldGrant s = .next { s with part := { s.part with
        manifold := { s.part.manifold with deferred := s.part.manifold.deferred ++ [(st, .grant)] }
        station := s.part.station.set st
          { x with counters := { x.counters with deferrals := satSucc 65535 x.counters.deferrals } } } }) ∧
    ((∃ w, (st, w) ∈ s.part.manifold.deferred) → exec .manifoldGrant s = .next s)) ∧
  (∀ s : State, s.part.resetHeld = false →
    s.part.manifold.queue = [] ∨ s.part.manifold.holder ≠ none ∨ s.part.manifold.purging = true →
    exec .manifoldGrant s = .next s)

/-- MANIFOLD_TIMEOUT (R125, R192): a sequencer whose wait count has reached the manifold wait limit leaves the queue and the
deferred list and is IDLE; its line is NOT_MEASURED with MANIFOLD_TIMEOUT unless it is FAIL, and the source is pending with
the check id. -/
def Obligations.ManifoldTimesOut : Prop :=
  ∀ (st : Stn) (s : State), s.part.online = true → s.part.Sized → (s.part.leak.get st).phase = .queued →
    20 * s.part.cell.waitLimit ≤ (s.part.leak.get st).waitCount →
    let id := (s.part.leak.get st).copy.checkId
    ∃ t, exec (.manifoldTimeout st) s = .next t ∧ (t.part.leak.get st).phase = .idle ∧
      (t.part.leak.get st).which = none ∧ st ∉ t.part.manifold.queue ∧ (∀ w, (st, w) ∉ t.part.manifold.deferred) ∧
      (t.part.station.get st).lines = (s.part.station.get st).lines.map (fun l =>
        if l.id = id ∧ l.outcome ≠ .fail then { l with outcome := .notMeasured, reason := .manifoldTimeout } else l) ∧
      t.part.alertAt (Source.manifoldTimeout st).number =
        { pending := true, detail := BitVec.ofNat 16 id, report := 0 }

/-- FILL_TIMEOUT (R130, R131, R132): a fill that did not reach its target in time is a gross leak: the line is FAIL with GROSS,
with the rate limit as its limit and 1,000,000 as its value, the detail block holds only the fill time, the grant is released,
the purge begins unless its time is 0, and the housing goes to vent. -/
def Obligations.FillTimesOut : Prop :=
  ∀ (st : Stn) (s : State), s.part.online = true → s.part.AirLaw → (s.part.leak.get st).phase = .fill →
    (s.part.leak.get st).copy.fillTimeout ≤ (s.part.leak.get st).fillTimer → s.part.manifold.quiet = [] →
    let x := s.part.leak.get st
    let gross : Detail := { present := true, p0 := 0, p1 := 0, t0 := 0, t1 := 0, decay := 0, rate := 0,
                            fillTime := x.fillCloses / 20 }
    ∃ t, exec (.fillTimeout st) s = .next t ∧ (t.part.leak.get st).phase = .vent ∧
      (t.part.leak.get st).ventCount = 0 ∧ (t.part.leak.get st).ventKind = .normal ∧
      (x.which = some .a → (t.part.leak.get st).detailA = gross) ∧
      (x.which = some .b → (t.part.leak.get st).detailB = gross) ∧
      (s.part.cell.purge ≠ 0 → t.part.manifold.holder = none ∧ t.part.manifold.purging = true) ∧
      t.part.manifold.holder ≠ some st ∧
      (t.part.station.get st).lines = (s.part.station.get st).lines.map (fun l =>
        if l.id = x.copy.checkId then
          { l with
            outcome := .fail, reason := .gross, limit := (x.copy.rateLimit : Int), evaluations := satSucc 255 l.evaluations
            worst := if l.evaluations = 0 ∨ l.worst < 1000000 then 1000000 else l.worst }
        else l)

/-- PURGE_END (R127, R132): a purge whose count has reached the purge time ends, and the grant conditions are tested: with no
grant held and no quiet holder, the head of the queue is granted. -/
def Obligations.PurgeEnds : Prop :=
  ∀ (s : State), s.part.online = true → s.part.AirLaw → s.part.manifold.purging = true →
    20 * s.part.cell.purge ≤ s.part.manifold.purgeCount →
    ∃ t, exec .purgeEnd s = .next t ∧ t.part.manifold.purging = false ∧
      (s.part.manifold.queue = [] → t.part.manifold.holder = none ∧ t.part.manifold.queue = []) ∧
      (∀ st rest, s.part.manifold.queue = st :: rest → s.part.manifold.quiet = [] →
        t.part.manifold.holder = some st ∧ t.part.manifold.queue = rest ∧ (t.part.leak.get st).phase = .fill) ∧
      (s.part.manifold.quiet ≠ [] → t.part.manifold.holder = none ∧ t.part.manifold.queue = s.part.manifold.queue)

/-- The phases of a leak sequencer. LEAK_SETTLE_END and VENT_END (R133, R138, R148): a settled sequencer enters MEASURE with
measure count 0; a vent whose count has reached the vent time leaves its sequencer IDLE, and with no valve left open a closing
VALVE_CMD is owed. Nothing else changes. CYCLE_FRAME (R125, R128, R133, R134, R138): at the close of a cycle a sequencer that stays
in its phase changes in nothing but the counts of that phase: in QUEUED the wait count, in FILL the fill closes, and the fill timer
unless the VALVE role formed shows supply low, in SETTLE the settle count, in VENT the vent count rise by one; in MEASURE the head
sums take the pressure and temperature of the first 256 closes and the tail sums those of the last 256, a missing one adds a
defect and its held value, and the measure count rises by one; in VENT_WAIT nothing changes. Hypotheses of the close: no deadline
lies within the time that passes, no command waits (log entry 6; R186), and the law of the manifold holds. -/
def Obligations.SettleAndVentEnd : Prop :=
  (∀ (st : Stn) (s : State), s.part.online = true →
    let x := s.part.leak.get st
    (x.phase = .settle → x.copy.settle ≤ x.settleCount →
      exec (.leakSettleEnd st) s = .next { s with part := { s.part with
        leak := s.part.leak.set st { x with phase := .measure, measureCount := 0 } } }) ∧
    (x.phase = .vent → x.copy.vent ≤ x.ventCount →
      let leak := s.part.leak.set st { x with phase := .idle, which := none }
      exec (.ventEnd st) s = .next { s with part := { s.part with
        leak := leak
        manifold := { s.part.manifold with closingOwed :=
          if s.part.manifold.holder = none ∧ s.part.manifold.purging = false ∧
              (∀ st', (leak.get st').phase ≠ .fill ∧ (leak.get st').phase ≠ .vent)
            then true else s.part.manifold.closingOwed } } })) ∧
  (∀ (f : Frame) (us : Nat) (orders : List (List Work)) (o : BitVec 32) (st : Stn) (s : State), s.Closes f us orders o →
    s.part.AirLaw →
    let x := s.part.leak.get st
    let held (owner : Option Stn) (r : RoleRecord) : Sample × Bool :=
      match serving owner r.role s.part.router.entries with
      | some v => (v, false)
      | none => (r.value, true)
    ∃ t, exec (.cycleFrame .outbound f us orders) s = .next t ∧
      let y := t.part.leak.get st
      (y.phase = x.phase →
        (x.phase = .queued → y = { x with waitCount := x.waitCount + 1 }) ∧
        (x.phase = .fill → ∀ r, s.part.roleRecord none .valve = some r →
          y = { x with
            fillCloses := x.fillCloses + 1
            fillTimer := if (held none r).1.supplyLow = true then x.fillTimer else x.fillTimer + 1 }) ∧
        (x.phase = .settle → y = { x with settleCount := x.settleCount + 1 }) ∧
        (x.phase = .measure → ∀ p q, s.part.roleAt st .press = some p → s.part.roleAt st .temp = some q →
          let i := x.measureCount
          let press := held (some st) p
          let temp := held (some st) q
          let tail : Prop := x.copy.measure ≤ i + 256 ∧ i < x.copy.measure
          y = { x with
            headPress := x.headPress + if i < 256 then press.1.pressure else 0
            headTemp := x.headTemp + if i < 256 then temp.1.temperature else 0
            tailPress := x.tailPress + if tail then press.1.pressure else 0
            tailTemp := x.tailTemp + if tail then temp.1.temperature else 0
            defects := x.defects + (if press.2 = true then 1 else 0) + (if temp.2 = true then 1 else 0)
            measureCount := i + 1 }) ∧
        (x.phase = .ventWait → y = x) ∧
        (x.phase = .vent → y = { x with ventCount := x.ventCount + 1 })))

/-- MEASURE_COMPLETE (R135, R136, R137, R138): too many defects leave the line NOT_MEASURED with SIGNAL, and untrusted
temperatures with TEMP_INVALID, unless it is FAIL; otherwise the decay and the rate are formed from the means of the head and
the tail, and the line is FAIL with reason NONE above the rate limit, NOT_MEASURED with RISE below the negative rise limit and
PASS with reason NONE between, but an earlier FAIL stands there with its reason. The detail block holds the figures, and the housing goes to vent, in VENT_WAIT while a quiet holder
exists. -/
def Obligations.MeasurementDecides : Prop :=
  ∀ (st : Stn) (s : State), s.part.online = true → s.part.AirLaw → (s.part.leak.get st).phase = .measure →
    (s.part.leak.get st).copy.measure ≤ (s.part.leak.get st).measureCount →
    let x := s.part.leak.get st
    let m := x.copy.measure
    let p0 := x.headPress / 256
    let p1 := x.tailPress / 256
    let t0 := x.headTemp / 256
    let t1 := x.tailTemp / 256
    let decay : Int := if x.copy.compensate then ((p0 * t1 / t0 : Nat) : Int) - p1 else (p0 : Int) - p1
    let rate : Int := clampTo 1000000 ((decay * 1200000).tdiv ((m : Int) - 256))
    let signal := m / 64 < x.defects
    let temp := x.copy.compensate = true ∧ ¬(20000 ≤ t0 ∧ t0 ≤ 40000 ∧ 20000 ≤ t1 ∧ t1 ≤ 40000)
    ∃ t, exec (.measureComplete st) s = .next t ∧
      (t.part.leak.get st).phase = (if s.part.manifold.quiet = [] then .vent else .ventWait) ∧
      (s.part.manifold.quiet ≠ [] → (st, Held.vent) ∈ t.part.manifold.deferred) ∧
      (x.which = some .a → (t.part.leak.get st).detailA =
        { x.detailA with present := true, p0 := p0, p1 := p1, t0 := t0, t1 := t1,
                         decay := if signal ∨ temp then 0 else decay, rate := if signal ∨ temp then 0 else rate }) ∧
      (x.which = some .b → (t.part.leak.get st).detailB =
        { x.detailB with present := true, p0 := p0, p1 := p1, t0 := t0, t1 := t1,
                         decay := if signal ∨ temp then 0 else decay, rate := if signal ∨ temp then 0 else rate }) ∧
      ∀ (i : Nat) (l : CheckLine), (s.part.station.get st).lines[i]? = some l →
        ∃ l', (t.part.station.get st).lines[i]? = some l' ∧ (l.id ≠ x.copy.checkId → l' = l) ∧
          (l.id = x.copy.checkId →
            (signal → l.outcome ≠ .fail → l' = { l with outcome := .notMeasured, reason := .signal }) ∧
            (¬signal → temp → l.outcome ≠ .fail → l' = { l with outcome := .notMeasured, reason := .tempInvalid }) ∧
            (signal ∨ temp → l.outcome = .fail → l' = l) ∧
            (¬signal → ¬temp → l'.evaluations = satSucc 255 l.evaluations ∧ l'.limit = x.copy.rateLimit ∧
              l'.worst = (if l.evaluations = 0 ∨ l.worst < rate then rate else l.worst) ∧
              l'.outcome = (if (x.copy.rateLimit : Int) < rate ∨ l.outcome = .fail then .fail
                else if rate < -(x.copy.riseLimit : Int) then .notMeasured else .pass) ∧
              l'.reason = (if (x.copy.rateLimit : Int) < rate then .none else if l.outcome = .fail then l.reason
                else if rate < -(x.copy.riseLimit : Int) then .rise else .none)))

/-- DEFERRED_RELEASE (R147): without a quiet holder every station entered with VENT opens its vent as a normal vent with vent
count 0, the deferred list is empty, and the head of the queue is granted when no grant is held and no purge runs. -/
def Obligations.DeferredReleased : Prop :=
  ∀ (s : State), s.part.resetHeld = false → s.part.AirLaw → s.part.manifold.quiet = [] →
    ∃ t, exec .deferredRelease s = .next t ∧ t.part.manifold.deferred = [] ∧
      (∀ st, (st, Held.vent) ∈ s.part.manifold.deferred → (t.part.leak.get st).phase = .vent ∧
        (t.part.leak.get st).ventCount = 0 ∧ (t.part.leak.get st).ventKind = .normal) ∧
      (∀ st rest, s.part.manifold.queue = st :: rest → s.part.manifold.holder = none →
        s.part.manifold.purging = false →
        t.part.manifold.holder = some st ∧ t.part.manifold.queue = rest ∧ (t.part.leak.get st).phase = .fill)

/-! ## Station commands -/

/-- START_AXLE accepted (R1 to R5, R44, R150, R154, R170): when the station is IDLE, every named table READY, no check id
clashes, every LEAK step's leak named, every required role mapped and a place free, the reply is OK and the station is in PREP
with the serial, the variant code, the binding, a fresh check list in ascending check id, zeroed counters and live runs and the
start cycle. The binding names the variant and every table it names, each by slot and generation, and nothing where it names
none; the reference count of each bound slot rises by one for each name, and no other slot changes. Each line's family, grade
and limit are those of the table entry that carries its id. A reservation is taken, the tracker is TRACKING with the table's P,
and both detail blocks are 0 in every field. -/
def Obligations.StartAccepted : Prop :=
  ∀ (tag : Byte) (st : Stn) (slot : BitVec 5) (serial : Entry) (n : Named) (s : State), s.Ready →
    serial.length = 16 → (s.part.station.get st).state = .idle → s.part.tables.named slot.toNat = some n →
    idsClash n.ids = false → n.leakMissing = false →
    (∀ r ∈ n.required, ∃ c ∈ s.part.router.entries, c.entry.owner = roleOwner st r ∧ c.entry.role = r) →
    s.part.reports.held.length + s.part.reports.reservations ≠ 12 →
    ∃ t, exec (.startAxle tag st slot serial) s = .next t ∧
      t.part.commands = { queue := [], reply := some (plainReply (codeStartAxle st slot) tag .ok []) } ∧
      (let x := t.part.station.get st;
        x.state = .prep ∧ x.serial = serial ∧ x.variantCode = n.variant.code ∧
        x.binding = (let named (k : Kind) (i : Nat) : SlotRef := { slot := i, generation := (s.part.tables.slot k i).generation };
          { variant := some (named .variant slot.toNat), profile := some (named .profile n.variant.profile),
            limit := n.variant.limit.map (named .limit), leakA := n.variant.leakA.map (named .leak),
            leakB := n.variant.leakB.map (named .leak) }) ∧
        x.required = n.required ∧ (∀ k ∈ x.live, k = 0) ∧ x.prepTimer = 0 ∧ x.startCycle = s.part.cycleNow ∧
        x.endCycle = none ∧ x.haltReason = .none ∧ x.earlyStop = false ∧ x.clamped = false ∧
        x.counters = Counters.reset ∧ (x.lines.map CheckLine.id).Pairwise (· < ·) ∧
        (∀ id, id < 64 → ((∃ l ∈ x.lines, l.id = id) ↔ ∃ ids ∈ n.ids, id ∈ ids)) ∧
        (∀ l ∈ x.lines, l.outcome = .notMeasured ∧ l.reason = .notReached ∧ l.evaluations = 0 ∧ l.worst = 0 ∧
          l.speedAtWorst = 0 ∧ l.windowAtWorst = 0 ∧
          ((∃ e ∈ n.limits, e.checkId = l.id ∧ l.family = e.family ∧ l.grade = e.grade ∧ l.limit = e.limit) ∨
            (∃ k ∈ torqueChecks n.profile, k.id = l.id ∧ l.family = .torque ∧ l.grade = k.grade ∧ l.limit = k.maximum) ∨
            (∃ r, (n.leakA = some r ∨ n.leakB = some r) ∧ r.checkId = l.id ∧ l.family = .leak ∧ l.grade = r.grade ∧
              l.limit = r.rateLimit)))) ∧
      (∀ st', st' ≠ st → t.part.station.get st' = s.part.station.get st') ∧
      t.part.reports = { s.part.reports with reservations := s.part.reports.reservations + 1 } ∧
      (∀ k i, t.part.tables.slot k i =
        { s.part.tables.slot k i with references := (s.part.tables.slot k i).references +
            (if k = .variant ∧ i = slot.toNat then 1 else 0) + (if k = .profile ∧ i = n.variant.profile then 1 else 0) +
            (if k = .limit ∧ n.variant.limit = some i then 1 else 0) + (if k = .leak ∧ n.variant.leakA = some i then 1 else 0) +
            (if k = .leak ∧ n.variant.leakB = some i then 1 else 0) }) ∧
      (t.part.tracker.get st).tracking = true ∧ (t.part.tracker.get st).p = headerP (n.profile.getD 0 []) ∧
      (t.part.leak.get st).phase = (s.part.leak.get st).phase ∧
      (let none : Detail := { present := false, p0 := 0, p1 := 0, t0 := 0, t1 := 0, decay := 0, rate := 0, fillTime := 0 };
        (t.part.leak.get st).detailA = none ∧ (t.part.leak.get st).detailB = none)

/-- START_AXLE refused (R1): the first test that fails gives the reply, BUSY for a station that is not IDLE, NO_TABLE for a
variant or a named table that is not READY, BAD_VARIANT for clashing ids or a missing leak, NO_CHANNEL for an unmapped role,
STORE_FULL for a full store; no state of any block changes. -/
def Obligations.StartRefused : Prop :=
  ∀ (tag : Byte) (st : Stn) (slot : BitVec 5) (serial : Entry) (s : State), s.Ready → serial.length = 16 →
    let refused (code : ReplyCode) : Prop := exec (.startAxle tag st slot serial) s =
      .next (s.replied s.part (codeStartAxle st slot) tag code [])
    ((s.part.station.get st).state ≠ .idle → refused .busy) ∧
    ((s.part.station.get st).state = .idle →
      (s.part.tables.named slot.toNat = none → refused .noTable) ∧
      (∀ n, s.part.tables.named slot.toNat = some n →
        (idsClash n.ids = true ∨ n.leakMissing = true → refused .badVariant) ∧
        (idsClash n.ids = false → n.leakMissing = false →
          ((∃ r ∈ n.required, ∀ c ∈ s.part.router.entries,
              ¬(c.entry.owner = roleOwner st r ∧ c.entry.role = r)) → refused .noChannel) ∧
          ((∀ r ∈ n.required, ∃ c ∈ s.part.router.entries, c.entry.owner = roleOwner st r ∧ c.entry.role = r) →
            s.part.reports.held.length + s.part.reports.reservations = 12 → refused .storeFull))))

/-- ABORT (R12, R14): BAD_ARG outside stations 0 to 3 and modes 0 and 1, NOT_ACTIVE in IDLE and HALTED; in PREP and FINISHING,
and in RUNNING with IMMEDIATE, the station enters STOPPING at once, its pending abort dropped, its leak phase abandoned and its
collector stopped; in RUNNING with AT_STEP_END only the pending mode changes; in STOPPING nothing does. -/
def Obligations.AbortByState : Prop :=
  ∀ (tag : Byte) (s : State), s.Ready →
    (∀ station mode : Byte, 3 < station.toNat ∨ 1 < mode.toNat →
      exec (.abort tag station mode) s = .next (s.replied s.part codeAbort tag .badArg [])) ∧
    (∀ (st : Stn) (mode : Byte), mode.toNat ≤ 1 →
      let x := s.part.station.get st
      let run := exec (.abort tag (BitVec.ofNat 8 st.val) mode) s
      (x.state = .idle ∨ x.state = .halted → run = .next (s.replied s.part codeAbort tag .notActive [])) ∧
      (x.state = .stopping → run = .next (s.replied s.part codeAbort tag .ok [])) ∧
      (x.state = .running → mode = 1 → run = .next (s.replied
        { s.part with profile := s.part.profile.set st { s.part.profile.get st with pendingAbort := true } }
        codeAbort tag .ok [])) ∧
      (x.state = .prep ∨ x.state = .finishing ∨ (x.state = .running ∧ mode = 0) → s.part.AirLaw →
        ∃ t, run = .next t ∧ (t.part.station.get st).state = .stopping ∧
          (t.part.profile.get st).pendingAbort = false ∧ (t.part.profile.get st).target = 0 ∧
          (t.part.profile.get st).remainder = 0 ∧
          (t.part.profile.get st).setpoint = (s.part.profile.get st).setpoint ∧
          (t.part.leak.get st).phase = (s.part.leak.get st).phase.afterStop ∧
          (t.part.collector.get st).state.stopped ∧ t.part.reports = s.part.reports ∧
          t.part.commands = { queue := [], reply := some (plainReply codeAbort tag .ok []) }))

/-- CLEAR_STATION (R18): a station number outside 0 to 3 is refused BAD_ARG; a HALTED station enters IDLE with its halt reason,
check list, counters and end cycle kept, its vent and its report untouched; any other state is refused NOT_HALTED. -/
def Obligations.ClearsHaltedStation : Prop :=
  ∀ (tag : Byte) (s : State), s.Ready →
    (∀ station : Byte, 3 < station.toNat →
      exec (.clearStation tag station) s = .next (s.replied s.part codeClearStation tag .badArg [])) ∧
    (∀ st : Stn,
      ((s.part.station.get st).state = .halted →
        exec (.clearStation tag (BitVec.ofNat 8 st.val)) s = .next (s.replied
          { s.part with station := s.part.station.set st { s.part.station.get st with state := .idle } }
          codeClearStation tag .ok [])) ∧
      ((s.part.station.get st).state ≠ .halted →
        exec (.clearStation tag (BitVec.ofNat 8 st.val)) s =
          .next (s.replied s.part codeClearStation tag .notHalted [])))

/-- SNAPSHOT and SNAPSHOT_READ (R19, R20, R21, R173): a station outside 0 to 3 is refused BAD_ARG and the capture stays; otherwise
the capture becomes the 32-byte record of that station as its blocks stand at that moment, served in two halves whose first
bytes name the station, and nothing else changes. The record holds, in the places of spec/11, 11.4: station, state and provisional
verdict, step, loop depth and collector state, leak phase, setpoint in whole rpm, measured speed (0 while there is none), latest
pressure, the valid windows, the sum of the invalid ones, cycles since start, and the numbers of FAIL and NOT_MEASURED lines.
SNAPSHOT_READ returns the second half of the capture there is, and EMPTY without one. -/
def Obligations.SnapshotInTwoHalves : Prop :=
  ∀ (tag : Byte) (s : State), s.Ready →
    (∀ station : Byte, 3 < station.toNat →
      exec (.snapshot tag station) s = .next (s.replied s.part codeSnapshot tag .badArg [])) ∧
    (∀ st : Stn,
      let x := s.part.station.get st
      let e := s.part.profile.get st
      let k := x.counters
      let invalid := k.disturbed + k.unsteady + k.defect + k.direction + k.index + k.overtime
      let pressure := match s.part.roleRecord (some st) .press with
        | some r => r.value.pressure
        | none => 0
      let cycles : BitVec 32 :=
        if s.part.activeAt st = true then s.part.cycleNow - x.startCycle
        else match x.endCycle with
          | some c => c - x.startCycle
          | none => 0
      let verdict := if ∃ l ∈ x.lines, l.grade = .must ∧ l.outcome = .fail then 1 else 0
      let count (o : LineOutcome) : Nat := (x.lines.filter (fun l => l.outcome = o)).length
      let record : List Byte :=
        [BitVec.ofNat 8 (st.val + 4 * x.state.code + 32 * verdict), BitVec.ofNat 8 e.step,
          BitVec.ofNat 8 (e.loops.length + 8 * (s.part.collector.get st).state.code),
          BitVec.ofNat 8 (s.part.leak.get st).phase.code]
        ++ out16 (BitVec.ofInt 16 (e.setpoint.tdiv 1024))
        ++ out16 (BitVec.ofInt 16 ((s.part.tracker.get st).speed.getD 0)) ++ out24 (BitVec.ofNat 24 pressure)
        ++ out16 (BitVec.ofNat 16 k.valid) ++ out16 (BitVec.ofNat 16 (min invalid 65535)) ++ [0]
        ++ [BitVec.ofNat 8 st.val] ++ out32 cycles ++ [BitVec.ofNat 8 (count .fail), BitVec.ofNat 8 (count .notMeasured)]
        ++ List.replicate 9 0
      exec (.snapshot tag (BitVec.ofNat 8 st.val)) s = .next (s.replied
        { s.part with capture := some { station := st, record := record } } codeSnapshot tag .ok (record.take 15))) ∧
    (∀ c, s.part.capture = some c → exec (.snapshotRead tag) s =
      .next (s.replied s.part codeSnapshotRead tag .ok ((c.record.drop 16).take 15))) ∧
    (s.part.capture = none → exec (.snapshotRead tag) s = .next (s.replied s.part codeSnapshotRead tag .empty []))

/-! ## The table store -/

/-- LOAD_BEGIN (R155, R156): BAD_ARG, IN_USE and BUSY in that order, each without effect; otherwise the slot is LOADING with the
given count and no entry written, it is the load in progress, a load on another slot is abandoned with LOAD_ABANDONED, and a MAP
load drops the router's entries and roles at once. -/
def Obligations.LoadBegins : Prop :=
  ∀ (tag kind slot count : Byte) (s : State), s.Ready →
    let run := exec (.loadBegin tag kind slot count) s
    let refused (code : ReplyCode) : Prop := run = .next (s.replied s.part codeLoadBegin tag code [])
    (kindOfCode kind.toNat = none → refused .badArg) ∧
    (∀ k, kindOfCode kind.toNat = some k →
      (k.slots ≤ slot.toNat ∨ count.toNat < k.counts.1 ∨ k.counts.2 < count.toNat → refused .badArg) ∧
      (slot.toNat < k.slots → k.counts.1 ≤ count.toNat → count.toNat ≤ k.counts.2 →
        ((s.part.tables.slot k slot.toNat).references ≠ 0 → refused .inUse) ∧
        ((s.part.tables.slot k slot.toNat).references = 0 → (k = .map ∨ k = .cell) → s.part.anyActive = true →
          refused .busy) ∧
        ((s.part.tables.slot k slot.toNat).references = 0 →
          ((k = .map ∨ k = .cell) → s.part.anyActive = false) → s.part.Sized →
          ∃ t, run = .next t ∧
            t.part.commands = { queue := [], reply := some (plainReply codeLoadBegin tag .ok []) } ∧
            t.part.tables.loading = some (k, slot.toNat) ∧
            t.part.tables.slot k slot.toNat =
              { state := .loading, generation := (s.part.tables.slot k slot.toNat).generation, references := 0,
                entryCount := count.toNat, entries := List.replicate count.toNat none } ∧
            t.part.router = (if k = .map then { entries := [], roles := [] } else s.part.router) ∧
            (∀ k' n', s.part.tables.loading = some (k', n') → n' < k'.slots → (k', n') ≠ (k, slot.toNat) →
              (t.part.tables.slot k' n').state = .empty ∧ (t.part.tables.slot k' n').entryCount = 0 ∧
              (t.part.tables.slot k' n').generation = (s.part.tables.slot k' n').generation ∧
              t.part.alertAt 22 = { pending := true, detail := BitVec.ofNat 16 (256 * k'.code + n'), report := 0 }) ∧
            (s.part.tables.loading = none ∨ s.part.tables.loading = some (k, slot.toNat) →
              t.part.alerts = s.part.alerts))))

/-- LOAD_ENTRY (R157): SEQUENCE without a load in progress and BAD_ARG for an index not below its entry count, each without
effect; otherwise the content is stored at the index, replacing what was there, the reply is OK, and nothing else changes. -/
def Obligations.LoadEntryStores : Prop :=
  ∀ (tag : Byte) (index : Fin 96) (content : Entry) (s : State), s.Ready → content.length = 16 →
    let run := exec (.loadEntry tag index content) s
    let refused (code : ReplyCode) : Prop := run = .next (s.replied s.part (codeLoadEntry index.val) tag code [])
    (s.part.tables.loading = none → refused .sequence) ∧
    (∀ k n, s.part.tables.loading = some (k, n) →
      let x := s.part.tables.slot k n
      (x.entryCount ≤ index.val → refused .badArg) ∧
      (index.val < x.entryCount → run = .next (s.replied
        { s.part with tables := s.part.tables.setSlot k n { x with entries := x.entries.set index.val (some content) } }
        (codeLoadEntry index.val) tag .ok [])))

/-- LOAD_END (R153, R158 to R165, R199): SEQUENCE without a load in progress, and BUSY for MAP and CELL while a station is active, each
without effect. A valid table becomes READY with the next generation, which the reply carries with the entry count, and a MAP
table is taken by the router. Validation makes its checks in their order, as `Slot.FaultyAs` spells out, and stops at the first
that fails: the slot is then EMPTY with its generation kept, and BAD_TABLE carries the detail code and the entry index. Either way no load is in progress. -/
def Obligations.LoadEnds : Prop :=
  ∀ (tag : Byte) (s : State), s.Ready →
    let run := exec (.loadEnd tag) s
    let refused (code : ReplyCode) : Prop := run = .next (s.replied s.part codeLoadEnd tag code [])
    (s.part.tables.loading = none → refused .sequence) ∧
    (∀ k n, s.part.tables.loading = some (k, n) →
      let x := s.part.tables.slot k n
      ((k = .map ∨ k = .cell) → s.part.anyActive = true → refused .busy) ∧
      (((k = .map ∨ k = .cell) → s.part.anyActive = false) →
        ((∀ fault index, ¬x.FaultyAs k fault index) → run = .next (s.replied
          { s.part with
            tables := { s.part.tables.setSlot k n { x with state := .ready, generation := x.generation + 1 } with
                        loading := none }
            router := if k = .map then routerOf x.table else s.part.router }
          codeLoadEnd tag .ok (out16 (x.generation + 1) ++ [BitVec.ofNat 8 x.entryCount]))) ∧
        (∀ fault index, x.FaultyAs k fault index → run = .next (s.replied
          { s.part with
            tables := { s.part.tables.setSlot k n { x with state := .empty, entryCount := 0, entries := [] } with
                        loading := none } }
          codeLoadEnd tag .badTable [BitVec.ofNat 8 fault.code, BitVec.ofNat 8 index]))))

/-- CLEAR_TABLE (R166): BAD_ARG, IN_USE and BUSY in that order, each without effect; otherwise the slot is EMPTY with no entries
and its generation kept, a load in progress on it ends without an alert, a load on another slot goes on, and clearing the MAP
slot drops the router's entries and role records. -/
def Obligations.ClearTableEmpties : Prop :=
  ∀ (tag kind slot : Byte) (s : State), s.Ready →
    let run := exec (.clearTable tag kind slot) s
    let refused (code : ReplyCode) : Prop := run = .next (s.replied s.part codeClearTable tag code [])
    (kindOfCode kind.toNat = none → refused .badArg) ∧
    (∀ k, kindOfCode kind.toNat = some k →
      let x := s.part.tables.slot k slot.toNat
      (k.slots ≤ slot.toNat → refused .badArg) ∧
      (slot.toNat < k.slots →
        (x.references ≠ 0 → refused .inUse) ∧
        (x.references = 0 → (k = .map ∨ k = .cell) → s.part.anyActive = true → refused .busy) ∧
        (x.references = 0 → ((k = .map ∨ k = .cell) → s.part.anyActive = false) →
          run = .next (s.replied
            { s.part with
              tables := { s.part.tables.setSlot k slot.toNat { x with state := .empty, entryCount := 0, entries := [] } with
                          loading := if s.part.tables.loading = some (k, slot.toNat) then none
                            else s.part.tables.loading }
              router := if k = .map then { entries := [], roles := [] } else s.part.router }
            codeClearTable tag .ok []))))

/-- TABLE_STATUS, STORE_STATUS and IDENT (R167, R180, R189) answer with what the part holds and change nothing else. -/
def Obligations.StatusCommands : Prop :=
  ∀ (tag : Byte) (s : State), s.Ready →
    (∀ kind slot : Byte, (kindOfCode kind.toNat = none ∨
        (∃ k, kindOfCode kind.toNat = some k ∧ k.slots ≤ slot.toNat)) →
      exec (.tableStatus tag kind slot) s = .next (s.replied s.part codeTableStatus tag .badArg [])) ∧
    (∀ (kind slot : Byte) (k : Kind), kindOfCode kind.toNat = some k → slot.toNat < k.slots →
      let x := s.part.tables.slot k slot.toNat
      let written := match x.state with
        | .empty => 0
        | .loading => (x.entries.filter (fun e => e.isSome)).length
        | .ready => x.entryCount
      exec (.tableStatus tag kind slot) s = .next (s.replied s.part codeTableStatus tag .ok
        ([BitVec.ofNat 8 x.state.code] ++ out16 x.generation ++
          [BitVec.ofNat 8 x.references, BitVec.ofNat 8 x.entryCount, BitVec.ofNat 8 written]))) ∧
    exec (.storeStatus tag) s = .next (s.replied s.part codeStoreStatus tag .ok
      ([BitVec.ofNat 8 s.part.reports.held.length, BitVec.ofNat 8 s.part.reports.reservations] ++
        (match s.part.reports.held with
          | r :: _ => out16 r.number ++ [BitVec.ofNat 8 (7 + r.lines.length)]
          | [] => [0, 0, 0]))) ∧
    exec (.ident tag) s = .next (s.replied s.part codeIdent tag .ok
      [0x2A, 0x04, 0x01, 4, 16, 16, 8, 32, 1, 1, 12, s.part.port.address.setWidth 8,
        (if s.part.tables.loading.isSome then 1 else 0) + (if s.part.anyActive then 2 else 0)])

/-! ## The report store, PART_RESET and unknown codes -/

/-- FETCH_REPORT (R176, R181, R198; spec/11, 11.4): EMPTY without a record and BAD_ARG for an index not below the oldest record's
segment count of 7 and its lines; otherwise the reply carries the oldest record's number, the index and the segment in two
frames, the index plus 128 in the second. The segments hold, 16 bytes each: station, end kind, clamp flag, verdict, halt reason,
line count, variant code, start and end cycle and steps; the serial; the eight counters; present flag, p0, p1, T0, T1 and fill time
and then D and rate of leak A and of leak B, all 0 where the block is not present; and one segment a line, a speed at worst outside
the signed 16-bit range as the nearer bound. Nothing else changes. -/
def Obligations.FetchServesOldest : Prop :=
  ∀ (tag segment : Byte) (s : State), s.Ready →
    let run := exec (.fetchReport tag segment) s
    (s.part.reports.held = [] → run = .next (s.replied s.part codeFetchReport tag .empty [])) ∧
    (∀ r rest, s.part.reports.held = r :: rest →
      let two (n : Nat) : List Byte := out16 (BitVec.ofNat 16 n)
      let three (n : Nat) : List Byte := out24 (BitVec.ofNat 24 n)
      let four (z : Int) : List Byte := out32 (BitVec.ofInt 32 z)
      let k := r.counters
      let block (d : Detail) : List Entry :=
        if d.present = true then
          [[1] ++ three d.p0 ++ three d.p1 ++ two d.t0 ++ two d.t1 ++ two (min d.fillTime 65535) ++ [0, 0, 0],
            four d.decay ++ four d.rate ++ List.replicate 8 0]
        else [List.replicate 16 0, List.replicate 16 0]
      let line (l : CheckLine) : Entry :=
        [BitVec.ofNat 8 l.id, BitVec.ofNat 8 (l.family.code + 4 * l.grade.code + 16 * l.outcome.code),
          BitVec.ofNat 8 l.reason.code, BitVec.ofNat 8 l.evaluations]
        ++ four l.worst ++ four l.limit ++ out16 (BitVec.ofInt 16 (max (-32768) (min 32767 l.speedAtWorst)))
        ++ two l.windowAtWorst
      let segments : List Entry :=
        [[BitVec.ofNat 8 (r.station.val + 4 * r.endKind.code + 16 * (if r.clamped = true then 1 else 0) + 32 * r.verdict.code),
            BitVec.ofNat 8 r.haltReason.code, BitVec.ofNat 8 r.lines.length]
          ++ out16 r.variantCode ++ out32 r.startCycle ++ out32 r.endCycle ++ two k.steps ++ [0],
          (r.serial ++ List.replicate 16 0).take 16,
          two k.valid ++ two k.disturbed ++ two k.unsteady ++ two k.defect ++ two k.direction ++ two k.index
            ++ two k.overtime ++ two k.deferrals]
        ++ block r.detailA ++ block r.detailB ++ r.lines.map line
      (7 + r.lines.length ≤ segment.toNat → run = .next (s.replied s.part codeFetchReport tag .badArg [])) ∧
      (segment.toNat < 7 + r.lines.length →
        ∃ bytes, segments[segment.toNat]? = some bytes ∧
          let reply : Reply := { code := codeFetchReport, tag := tag, reply := .ok,
                                 results := padTo 15 (out16 r.number ++ [segment] ++ bytes.take 12),
                                 second := some (padTo 15 (out16 r.number ++ [segment + 128] ++
                                   (bytes.drop 12).take 4)) }
          run = .next { s with part := { s.part with commands := { queue := [], reply := some reply } } }))

/-- RELEASE_REPORT (R182): EMPTY without a record and WRONG_REPORT with the oldest number for another number, each without
effect; the oldest record's number removes that record, and the next oldest stands first. -/
def Obligations.ReleaseRemovesOldest : Prop :=
  ∀ (tag : Byte) (number : BitVec 16) (s : State), s.Ready →
    let run := exec (.releaseReport tag number) s
    (s.part.reports.held = [] → run = .next (s.replied s.part codeReleaseReport tag .empty [])) ∧
    (∀ r rest, s.part.reports.held = r :: rest →
      (r.number ≠ number → run = .next (s.replied s.part codeReleaseReport tag .wrongReport (out16 r.number))) ∧
      (r.number = number → run = .next (s.replied
        { s.part with reports := { s.part.reports with held := rest } } codeReleaseReport tag .ok (out16 number))))

/-- PART_RESET (R190): any scope but 1 and 2 is refused BAD_ARG, and scopes 1 and 2 are refused BUSY while a station is active. Scope RUN sets every
station, tracker, collector and sequencer and the engine to reset values, keeps each executor's last sign and zero run, empties
the report store but keeps the next number, owes one VALVE_CMD, clears the alerts and the capture, and keeps tables, map, port and
command queue; scope ALL also empties the tables, the map and the report number. The averaged waveform, window speed and
window number of a reset collector are 0 by the model's choice (DESIGN CHOICE, log entry 21). -/
def Obligations.PartResets : Prop :=
  ∀ (tag scope : Byte) (s : State), s.Ready →
    let run := exec (.partReset tag scope) s
    (scope ≠ 1 → scope ≠ 2 → run = .next (s.replied s.part codePartReset tag .badArg [])) ∧
    (scope = 1 ∨ scope = 2 → s.part.anyActive = true →
      run = .next (s.replied s.part codePartReset tag .busy [])) ∧
    (scope = 1 ∨ scope = 2 → s.part.anyActive = false →
      ∃ t, run = .next t ∧ t.pending = s.pending ∧
        t.part.commands = { queue := [], reply := some (plainReply codePartReset tag .ok []) } ∧
        (∀ st, t.part.station.get st = Station.reset ∧ t.part.tracker.get st = Tracker.reset ∧
          t.part.collector.get st = Collector.reset ∧ t.part.leak.get st = Sequencer.reset ∧
          t.part.profile.get st = { Executor.reset with
            lastSign := (s.part.profile.get st).lastSign, zeroRun := (s.part.profile.get st).zeroRun }) ∧
        t.part.engine = { queue := [], evaluation := none } ∧
        t.part.manifold = { Manifold.reset with closingOwed := true } ∧
        (∀ n, n < 24 → t.part.alerts[n]? = some { pending := false, detail := 0, report := 0 }) ∧
        t.part.capture = none ∧ t.part.port = s.part.port ∧ t.part.ringOut = s.part.ringOut ∧
        t.part.clock = s.part.clock ∧ t.part.resetHeld = s.part.resetHeld ∧
        t.part.reports = { held := [], reservations := 0,
                           nextNumber := if scope = 1 then s.part.reports.nextNumber else 0 } ∧
        (scope = 1 → t.part.tables = s.part.tables ∧ t.part.router = s.part.router) ∧
        (scope = 2 → t.part.router = { entries := [], roles := [] } ∧ t.part.tables.loading = none ∧
          ∀ k n, n < k.slots → (t.part.tables.slots k)[n]? =
            some { state := .empty, generation := 0, references := 0, entryCount := 0, entries := [] }))

/-- UNKNOWN_COMMAND (R187): a command code that names none of the 15 commands, 0x00 and 0x0E to 0x1F, is answered UNKNOWN with
result bytes 0 and has no effect. -/
def Obligations.UnknownAnswered : Prop :=
  ∀ (tag code : Byte) (s : State), s.Ready → (code.toNat = 0 ∨ (14 ≤ code.toNat ∧ code.toNat ≤ 31)) →
    exec (.unknownCommand tag code) s = .next (s.replied s.part code tag .unknown [])

/-! ## What events and commands leave unchanged -/

/-- The frame of the events: whatever an event of a station or of the part does, it leaves the reset line, the time, the ring
port, the router, the command unit, the capture and the frames put on the ring; of every other station it leaves the record
but for its counters, its executor and its tracker (the air gate reaches other stations' collectors and sequencers, R144, R147).
An event that neither halts a station nor ends its test leaves the tables, the report store and the trackers; those of the leak
sequencer and of the manifold leave every executor and the analysis engine, and those of the collector and the engine every
executor. -/
def Obligations.EventFrames : Prop :=
  ∀ (i : Instr) (st : Stn) (s t : State), exec i s = .next t →
    (i ∈ stationEvents st ∨ i ∈ partEvents →
      t.pending = s.pending ∧ t.part.resetHeld = s.part.resetHeld ∧ t.part.clock = s.part.clock ∧
      t.part.port = s.part.port ∧ t.part.router = s.part.router ∧ t.part.commands = s.part.commands ∧
      t.part.capture = s.part.capture ∧ t.part.ringOut = s.part.ringOut) ∧
    (i ∈ stationEvents st → ∀ j, j ≠ st →
      { t.part.station.get j with counters := (s.part.station.get j).counters } = s.part.station.get j ∧
      t.part.profile.get j = s.part.profile.get j ∧ t.part.tracker.get j = s.part.tracker.get j) ∧
    (i ∈ executorEvents st ++ collectorEvents st ++ sequencerEvents st ++ partEvents →
      t.part.tables = s.part.tables ∧ t.part.reports = s.part.reports ∧ t.part.tracker = s.part.tracker) ∧
    (i ∈ collectorEvents st ++ sequencerEvents st ++ partEvents → t.part.profile = s.part.profile) ∧
    (i ∈ sequencerEvents st ++ [.manifoldGrant, .purgeEnd, .deferredRelease] → t.part.engine = s.part.engine)

/-- The frame of the commands: none touches the reset line, the time, the ring port or the frames put on the ring, and a table,
report or status command leaves every station, tracker, executor, collector and sequencer, the engine and the manifold. -/
def Obligations.CommandFrames : Prop :=
  ∀ (i : Instr) (s t : State), s.Ready → exec i s = .next t →
    (isStationCommand i = true ∨ isStoreCommand i = true →
      t.pending = s.pending ∧ t.part.resetHeld = s.part.resetHeld ∧ t.part.clock = s.part.clock ∧
      t.part.port = s.part.port ∧ t.part.ringOut = s.part.ringOut) ∧
    (isStoreCommand i = true →
      t.part.station = s.part.station ∧ t.part.tracker = s.part.tracker ∧ t.part.profile = s.part.profile ∧
      t.part.collector = s.part.collector ∧ t.part.leak = s.part.leak ∧ t.part.engine = s.part.engine ∧
      t.part.manifold = s.part.manifold)

/-! ## Invariants of every step -/

/-- Every step keeps the laws of the ring port and the command unit (R31, R32, R185, R188), in every state. -/
def Obligations.RingLawKept : Prop := ∀ s t : State, step s = .next t → s.part.RingLaw → t.part.RingLaw

/-- Every step keeps the laws of the report store (R177, R179), in every state. -/
def Obligations.StoreLawKept : Prop := ∀ s t : State, step s = .next t → s.part.StoreLaw → t.part.StoreLaw

/-- Every step keeps the laws of the manifold (R127), in every state. -/
def Obligations.AirLawKept : Prop := ∀ s t : State, step s = .next t → s.part.AirLaw → t.part.AirLaw

/-- Every step keeps the numbers of alert sources and table slots, in every state. With them it keeps the table store's law:
reference counts, the slot in LOADING and the validity of READY slots (R154, R155, R158); under that, the loop stacks' law (R76);
and, under the manifold's law, the laws of the collectors (R60, R101, R111), of the quiet holders (R142, R146), of the analysis
queue (R107) and of the setpoints (R62), and under all of them the law of the check lines (R171). -/
def Obligations.SizesKept : Prop := ∀ s t : State, step s = .next t → s.part.Sized →
  t.part.Sized ∧
  (s.part.TableLaw →
    t.part.TableLaw ∧ (s.part.LoopLaw → t.part.LoopLaw) ∧
    (s.part.AirLaw → s.part.CollectorLaw → s.part.QuietLaw → s.part.AnalysisLaw → s.part.SpeedLaw →
      (t.part.CollectorLaw ∧ t.part.QuietLaw ∧ t.part.AnalysisLaw ∧ t.part.SpeedLaw) ∧
      (s.part.LoopLaw → s.part.LineLaw → t.part.LineLaw)))

/-- The state after reset satisfies every invariant. -/
def Obligations.LawsHoldAtReset : Prop :=
  State.reset.part.RingLaw ∧ State.reset.part.StoreLaw ∧ State.reset.part.AirLaw ∧ State.reset.part.Sized ∧
  State.reset.part.TableLaw ∧ State.reset.part.CollectorLaw ∧ State.reset.part.QuietLaw ∧ State.reset.part.AnalysisLaw ∧
  State.reset.part.SpeedLaw ∧ State.reset.part.LoopLaw ∧ State.reset.part.LineLaw
end

