-- ==== Sys2Proof/Laws/State.lean ====
section
/-!
SUPPORT. One lemma for each field of the part under each named update, and the reads of a station's value after an
update, so that no later proof unfolds a record update.
-/
namespace Sys2Proof.Machine

open Sys2Proof

/-! ## One value for each station -/

@[simp] theorem Four.get_set_same {α : Type} (v : Four α) (i : Stn) (x : α) : (v.set i x).get i = x := by
  revert i; intro i; match i with
  | 0 => rfl
  | 1 => rfl
  | 2 => rfl
  | 3 => rfl

theorem Four.get_set_other {α : Type} (v : Four α) {i j : Stn} (x : α) (h : j ≠ i) : (v.set i x).get j = v.get j := by
  revert h; revert j; revert i; intro i j h
  match i, j with
  | 0, 0 => exact absurd rfl h
  | 0, 1 => rfl
  | 0, 2 => rfl
  | 0, 3 => rfl
  | 1, 0 => rfl
  | 1, 1 => exact absurd rfl h
  | 1, 2 => rfl
  | 1, 3 => rfl
  | 2, 0 => rfl
  | 2, 1 => rfl
  | 2, 2 => exact absurd rfl h
  | 2, 3 => rfl
  | 3, 0 => rfl
  | 3, 1 => rfl
  | 3, 2 => rfl
  | 3, 3 => exact absurd rfl h

theorem Four.get_set {α : Type} (v : Four α) (i j : Stn) (x : α) :
    (v.set i x).get j = if j = i then x else v.get j := by
  by_cases h : j = i
  · subst h; simp
  · simp [Four.get_set_other v x h, h]

@[simp] theorem Four.get_all {α : Type} (x : α) (i : Stn) : (Four.all x).get i = x := by
  match i with
  | 0 => rfl
  | 1 => rfl
  | 2 => rfl
  | 3 => rfl

theorem Four.ext_get {α : Type} {v w : Four α} (h : ∀ i, v.get i = w.get i) : v = w := by
  have h0 := h 0; have h1 := h 1; have h2 := h 2; have h3 := h 3
  cases v; cases w
  simp only [Four.get] at h0 h1 h2 h3
  subst h0 h1 h2 h3; rfl

/-! ## Updates of one station's block -/

@[simp] theorem Part.modStation_resetHeld (p : Part) (st : Stn) (g : Station → Station) : (p.modStation st g).resetHeld = p.resetHeld := rfl

@[simp] theorem Part.modStation_clock (p : Part) (st : Stn) (g : Station → Station) : (p.modStation st g).clock = p.clock := rfl

@[simp] theorem Part.modStation_port (p : Part) (st : Stn) (g : Station → Station) : (p.modStation st g).port = p.port := rfl

@[simp] theorem Part.modStation_router (p : Part) (st : Stn) (g : Station → Station) : (p.modStation st g).router = p.router := rfl

@[simp] theorem Part.modStation_tracker (p : Part) (st : Stn) (g : Station → Station) : (p.modStation st g).tracker = p.tracker := rfl

@[simp] theorem Part.modStation_profile (p : Part) (st : Stn) (g : Station → Station) : (p.modStation st g).profile = p.profile := rfl

@[simp] theorem Part.modStation_collector (p : Part) (st : Stn) (g : Station → Station) : (p.modStation st g).collector = p.collector := rfl

@[simp] theorem Part.modStation_leak (p : Part) (st : Stn) (g : Station → Station) : (p.modStation st g).leak = p.leak := rfl

@[simp] theorem Part.modStation_station (p : Part) (st : Stn) (g : Station → Station) :
    (p.modStation st g).station = p.station.set st (g (p.station.get st)) := rfl

@[simp] theorem Part.modStation_engine (p : Part) (st : Stn) (g : Station → Station) : (p.modStation st g).engine = p.engine := rfl

@[simp] theorem Part.modStation_manifold (p : Part) (st : Stn) (g : Station → Station) : (p.modStation st g).manifold = p.manifold := rfl

@[simp] theorem Part.modStation_tables (p : Part) (st : Stn) (g : Station → Station) : (p.modStation st g).tables = p.tables := rfl

@[simp] theorem Part.modStation_reports (p : Part) (st : Stn) (g : Station → Station) : (p.modStation st g).reports = p.reports := rfl

@[simp] theorem Part.modStation_commands (p : Part) (st : Stn) (g : Station → Station) : (p.modStation st g).commands = p.commands := rfl

@[simp] theorem Part.modStation_alerts (p : Part) (st : Stn) (g : Station → Station) : (p.modStation st g).alerts = p.alerts := rfl

@[simp] theorem Part.modStation_capture (p : Part) (st : Stn) (g : Station → Station) : (p.modStation st g).capture = p.capture := rfl

@[simp] theorem Part.modStation_ringOut (p : Part) (st : Stn) (g : Station → Station) : (p.modStation st g).ringOut = p.ringOut := rfl

@[simp] theorem Part.modTracker_resetHeld (p : Part) (st : Stn) (g : Tracker → Tracker) : (p.modTracker st g).resetHeld = p.resetHeld := rfl

@[simp] theorem Part.modTracker_clock (p : Part) (st : Stn) (g : Tracker → Tracker) : (p.modTracker st g).clock = p.clock := rfl

@[simp] theorem Part.modTracker_port (p : Part) (st : Stn) (g : Tracker → Tracker) : (p.modTracker st g).port = p.port := rfl

@[simp] theorem Part.modTracker_router (p : Part) (st : Stn) (g : Tracker → Tracker) : (p.modTracker st g).router = p.router := rfl

@[simp] theorem Part.modTracker_tracker (p : Part) (st : Stn) (g : Tracker → Tracker) :
    (p.modTracker st g).tracker = p.tracker.set st (g (p.tracker.get st)) := rfl

@[simp] theorem Part.modTracker_profile (p : Part) (st : Stn) (g : Tracker → Tracker) : (p.modTracker st g).profile = p.profile := rfl

@[simp] theorem Part.modTracker_collector (p : Part) (st : Stn) (g : Tracker → Tracker) : (p.modTracker st g).collector = p.collector := rfl

@[simp] theorem Part.modTracker_leak (p : Part) (st : Stn) (g : Tracker → Tracker) : (p.modTracker st g).leak = p.leak := rfl

@[simp] theorem Part.modTracker_station (p : Part) (st : Stn) (g : Tracker → Tracker) : (p.modTracker st g).station = p.station := rfl

@[simp] theorem Part.modTracker_engine (p : Part) (st : Stn) (g : Tracker → Tracker) : (p.modTracker st g).engine = p.engine := rfl

@[simp] theorem Part.modTracker_manifold (p : Part) (st : Stn) (g : Tracker → Tracker) : (p.modTracker st g).manifold = p.manifold := rfl

@[simp] theorem Part.modTracker_tables (p : Part) (st : Stn) (g : Tracker → Tracker) : (p.modTracker st g).tables = p.tables := rfl

@[simp] theorem Part.modTracker_reports (p : Part) (st : Stn) (g : Tracker → Tracker) : (p.modTracker st g).reports = p.reports := rfl

@[simp] theorem Part.modTracker_commands (p : Part) (st : Stn) (g : Tracker → Tracker) : (p.modTracker st g).commands = p.commands := rfl

@[simp] theorem Part.modTracker_alerts (p : Part) (st : Stn) (g : Tracker → Tracker) : (p.modTracker st g).alerts = p.alerts := rfl

@[simp] theorem Part.modTracker_capture (p : Part) (st : Stn) (g : Tracker → Tracker) : (p.modTracker st g).capture = p.capture := rfl

@[simp] theorem Part.modTracker_ringOut (p : Part) (st : Stn) (g : Tracker → Tracker) : (p.modTracker st g).ringOut = p.ringOut := rfl

@[simp] theorem Part.modProfile_resetHeld (p : Part) (st : Stn) (g : Executor → Executor) : (p.modProfile st g).resetHeld = p.resetHeld := rfl

@[simp] theorem Part.modProfile_clock (p : Part) (st : Stn) (g : Executor → Executor) : (p.modProfile st g).clock = p.clock := rfl

@[simp] theorem Part.modProfile_port (p : Part) (st : Stn) (g : Executor → Executor) : (p.modProfile st g).port = p.port := rfl

@[simp] theorem Part.modProfile_router (p : Part) (st : Stn) (g : Executor → Executor) : (p.modProfile st g).router = p.router := rfl

@[simp] theorem Part.modProfile_tracker (p : Part) (st : Stn) (g : Executor → Executor) : (p.modProfile st g).tracker = p.tracker := rfl

@[simp] theorem Part.modProfile_profile (p : Part) (st : Stn) (g : Executor → Executor) :
    (p.modProfile st g).profile = p.profile.set st (g (p.profile.get st)) := rfl

@[simp] theorem Part.modProfile_collector (p : Part) (st : Stn) (g : Executor → Executor) : (p.modProfile st g).collector = p.collector := rfl

@[simp] theorem Part.modProfile_leak (p : Part) (st : Stn) (g : Executor → Executor) : (p.modProfile st g).leak = p.leak := rfl

@[simp] theorem Part.modProfile_station (p : Part) (st : Stn) (g : Executor → Executor) : (p.modProfile st g).station = p.station := rfl

@[simp] theorem Part.modProfile_engine (p : Part) (st : Stn) (g : Executor → Executor) : (p.modProfile st g).engine = p.engine := rfl

@[simp] theorem Part.modProfile_manifold (p : Part) (st : Stn) (g : Executor → Executor) : (p.modProfile st g).manifold = p.manifold := rfl

@[simp] theorem Part.modProfile_tables (p : Part) (st : Stn) (g : Executor → Executor) : (p.modProfile st g).tables = p.tables := rfl

@[simp] theorem Part.modProfile_reports (p : Part) (st : Stn) (g : Executor → Executor) : (p.modProfile st g).reports = p.reports := rfl

@[simp] theorem Part.modProfile_commands (p : Part) (st : Stn) (g : Executor → Executor) : (p.modProfile st g).commands = p.commands := rfl

@[simp] theorem Part.modProfile_alerts (p : Part) (st : Stn) (g : Executor → Executor) : (p.modProfile st g).alerts = p.alerts := rfl

@[simp] theorem Part.modProfile_capture (p : Part) (st : Stn) (g : Executor → Executor) : (p.modProfile st g).capture = p.capture := rfl

@[simp] theorem Part.modProfile_ringOut (p : Part) (st : Stn) (g : Executor → Executor) : (p.modProfile st g).ringOut = p.ringOut := rfl

@[simp] theorem Part.modCollector_resetHeld (p : Part) (st : Stn) (g : Collector → Collector) : (p.modCollector st g).resetHeld = p.resetHeld := rfl

@[simp] theorem Part.modCollector_clock (p : Part) (st : Stn) (g : Collector → Collector) : (p.modCollector st g).clock = p.clock := rfl

@[simp] theorem Part.modCollector_port (p : Part) (st : Stn) (g : Collector → Collector) : (p.modCollector st g).port = p.port := rfl

@[simp] theorem Part.modCollector_router (p : Part) (st : Stn) (g : Collector → Collector) : (p.modCollector st g).router = p.router := rfl

@[simp] theorem Part.modCollector_tracker (p : Part) (st : Stn) (g : Collector → Collector) : (p.modCollector st g).tracker = p.tracker := rfl

@[simp] theorem Part.modCollector_profile (p : Part) (st : Stn) (g : Collector → Collector) : (p.modCollector st g).profile = p.profile := rfl

@[simp] theorem Part.modCollector_collector (p : Part) (st : Stn) (g : Collector → Collector) :
    (p.modCollector st g).collector = p.collector.set st (g (p.collector.get st)) := rfl

@[simp] theorem Part.modCollector_leak (p : Part) (st : Stn) (g : Collector → Collector) : (p.modCollector st g).leak = p.leak := rfl

@[simp] theorem Part.modCollector_station (p : Part) (st : Stn) (g : Collector → Collector) : (p.modCollector st g).station = p.station := rfl

@[simp] theorem Part.modCollector_engine (p : Part) (st : Stn) (g : Collector → Collector) : (p.modCollector st g).engine = p.engine := rfl

@[simp] theorem Part.modCollector_manifold (p : Part) (st : Stn) (g : Collector → Collector) : (p.modCollector st g).manifold = p.manifold := rfl

@[simp] theorem Part.modCollector_tables (p : Part) (st : Stn) (g : Collector → Collector) : (p.modCollector st g).tables = p.tables := rfl

@[simp] theorem Part.modCollector_reports (p : Part) (st : Stn) (g : Collector → Collector) : (p.modCollector st g).reports = p.reports := rfl

@[simp] theorem Part.modCollector_commands (p : Part) (st : Stn) (g : Collector → Collector) : (p.modCollector st g).commands = p.commands := rfl

@[simp] theorem Part.modCollector_alerts (p : Part) (st : Stn) (g : Collector → Collector) : (p.modCollector st g).alerts = p.alerts := rfl

@[simp] theorem Part.modCollector_capture (p : Part) (st : Stn) (g : Collector → Collector) : (p.modCollector st g).capture = p.capture := rfl

@[simp] theorem Part.modCollector_ringOut (p : Part) (st : Stn) (g : Collector → Collector) : (p.modCollector st g).ringOut = p.ringOut := rfl

@[simp] theorem Part.modLeak_resetHeld (p : Part) (st : Stn) (g : Sequencer → Sequencer) : (p.modLeak st g).resetHeld = p.resetHeld := rfl

@[simp] theorem Part.modLeak_clock (p : Part) (st : Stn) (g : Sequencer → Sequencer) : (p.modLeak st g).clock = p.clock := rfl

@[simp] theorem Part.modLeak_port (p : Part) (st : Stn) (g : Sequencer → Sequencer) : (p.modLeak st g).port = p.port := rfl

@[simp] theorem Part.modLeak_router (p : Part) (st : Stn) (g : Sequencer → Sequencer) : (p.modLeak st g).router = p.router := rfl

@[simp] theorem Part.modLeak_tracker (p : Part) (st : Stn) (g : Sequencer → Sequencer) : (p.modLeak st g).tracker = p.tracker := rfl

@[simp] theorem Part.modLeak_profile (p : Part) (st : Stn) (g : Sequencer → Sequencer) : (p.modLeak st g).profile = p.profile := rfl

@[simp] theorem Part.modLeak_collector (p : Part) (st : Stn) (g : Sequencer → Sequencer) : (p.modLeak st g).collector = p.collector := rfl

@[simp] theorem Part.modLeak_leak (p : Part) (st : Stn) (g : Sequencer → Sequencer) :
    (p.modLeak st g).leak = p.leak.set st (g (p.leak.get st)) := rfl

@[simp] theorem Part.modLeak_station (p : Part) (st : Stn) (g : Sequencer → Sequencer) : (p.modLeak st g).station = p.station := rfl

@[simp] theorem Part.modLeak_engine (p : Part) (st : Stn) (g : Sequencer → Sequencer) : (p.modLeak st g).engine = p.engine := rfl

@[simp] theorem Part.modLeak_manifold (p : Part) (st : Stn) (g : Sequencer → Sequencer) : (p.modLeak st g).manifold = p.manifold := rfl

@[simp] theorem Part.modLeak_tables (p : Part) (st : Stn) (g : Sequencer → Sequencer) : (p.modLeak st g).tables = p.tables := rfl

@[simp] theorem Part.modLeak_reports (p : Part) (st : Stn) (g : Sequencer → Sequencer) : (p.modLeak st g).reports = p.reports := rfl

@[simp] theorem Part.modLeak_commands (p : Part) (st : Stn) (g : Sequencer → Sequencer) : (p.modLeak st g).commands = p.commands := rfl

@[simp] theorem Part.modLeak_alerts (p : Part) (st : Stn) (g : Sequencer → Sequencer) : (p.modLeak st g).alerts = p.alerts := rfl

@[simp] theorem Part.modLeak_capture (p : Part) (st : Stn) (g : Sequencer → Sequencer) : (p.modLeak st g).capture = p.capture := rfl

@[simp] theorem Part.modLeak_ringOut (p : Part) (st : Stn) (g : Sequencer → Sequencer) : (p.modLeak st g).ringOut = p.ringOut := rfl

/-! ## Updates of a block that serves the cell -/

@[simp] theorem Part.modManifold_resetHeld (p : Part) (g : Manifold → Manifold) : (p.modManifold g).resetHeld = p.resetHeld := rfl

@[simp] theorem Part.modManifold_clock (p : Part) (g : Manifold → Manifold) : (p.modManifold g).clock = p.clock := rfl

@[simp] theorem Part.modManifold_port (p : Part) (g : Manifold → Manifold) : (p.modManifold g).port = p.port := rfl

@[simp] theorem Part.modManifold_router (p : Part) (g : Manifold → Manifold) : (p.modManifold g).router = p.router := rfl

@[simp] theorem Part.modManifold_tracker (p : Part) (g : Manifold → Manifold) : (p.modManifold g).tracker = p.tracker := rfl

@[simp] theorem Part.modManifold_profile (p : Part) (g : Manifold → Manifold) : (p.modManifold g).profile = p.profile := rfl

@[simp] theorem Part.modManifold_collector (p : Part) (g : Manifold → Manifold) : (p.modManifold g).collector = p.collector := rfl

@[simp] theorem Part.modManifold_leak (p : Part) (g : Manifold → Manifold) : (p.modManifold g).leak = p.leak := rfl

@[simp] theorem Part.modManifold_station (p : Part) (g : Manifold → Manifold) : (p.modManifold g).station = p.station := rfl

@[simp] theorem Part.modManifold_engine (p : Part) (g : Manifold → Manifold) : (p.modManifold g).engine = p.engine := rfl

@[simp] theorem Part.modManifold_manifold (p : Part) (g : Manifold → Manifold) : (p.modManifold g).manifold = g p.manifold := rfl

@[simp] theorem Part.modManifold_tables (p : Part) (g : Manifold → Manifold) : (p.modManifold g).tables = p.tables := rfl

@[simp] theorem Part.modManifold_reports (p : Part) (g : Manifold → Manifold) : (p.modManifold g).reports = p.reports := rfl

@[simp] theorem Part.modManifold_commands (p : Part) (g : Manifold → Manifold) : (p.modManifold g).commands = p.commands := rfl

@[simp] theorem Part.modManifold_alerts (p : Part) (g : Manifold → Manifold) : (p.modManifold g).alerts = p.alerts := rfl

@[simp] theorem Part.modManifold_capture (p : Part) (g : Manifold → Manifold) : (p.modManifold g).capture = p.capture := rfl

@[simp] theorem Part.modManifold_ringOut (p : Part) (g : Manifold → Manifold) : (p.modManifold g).ringOut = p.ringOut := rfl

@[simp] theorem Part.modEngine_resetHeld (p : Part) (g : Engine → Engine) : (p.modEngine g).resetHeld = p.resetHeld := rfl

@[simp] theorem Part.modEngine_clock (p : Part) (g : Engine → Engine) : (p.modEngine g).clock = p.clock := rfl

@[simp] theorem Part.modEngine_port (p : Part) (g : Engine → Engine) : (p.modEngine g).port = p.port := rfl

@[simp] theorem Part.modEngine_router (p : Part) (g : Engine → Engine) : (p.modEngine g).router = p.router := rfl

@[simp] theorem Part.modEngine_tracker (p : Part) (g : Engine → Engine) : (p.modEngine g).tracker = p.tracker := rfl

@[simp] theorem Part.modEngine_profile (p : Part) (g : Engine → Engine) : (p.modEngine g).profile = p.profile := rfl

@[simp] theorem Part.modEngine_collector (p : Part) (g : Engine → Engine) : (p.modEngine g).collector = p.collector := rfl

@[simp] theorem Part.modEngine_leak (p : Part) (g : Engine → Engine) : (p.modEngine g).leak = p.leak := rfl

@[simp] theorem Part.modEngine_station (p : Part) (g : Engine → Engine) : (p.modEngine g).station = p.station := rfl

@[simp] theorem Part.modEngine_engine (p : Part) (g : Engine → Engine) : (p.modEngine g).engine = g p.engine := rfl

@[simp] theorem Part.modEngine_manifold (p : Part) (g : Engine → Engine) : (p.modEngine g).manifold = p.manifold := rfl

@[simp] theorem Part.modEngine_tables (p : Part) (g : Engine → Engine) : (p.modEngine g).tables = p.tables := rfl

@[simp] theorem Part.modEngine_reports (p : Part) (g : Engine → Engine) : (p.modEngine g).reports = p.reports := rfl

@[simp] theorem Part.modEngine_commands (p : Part) (g : Engine → Engine) : (p.modEngine g).commands = p.commands := rfl

@[simp] theorem Part.modEngine_alerts (p : Part) (g : Engine → Engine) : (p.modEngine g).alerts = p.alerts := rfl

@[simp] theorem Part.modEngine_capture (p : Part) (g : Engine → Engine) : (p.modEngine g).capture = p.capture := rfl

@[simp] theorem Part.modEngine_ringOut (p : Part) (g : Engine → Engine) : (p.modEngine g).ringOut = p.ringOut := rfl

@[simp] theorem Part.modRouter_resetHeld (p : Part) (g : Router → Router) : (p.modRouter g).resetHeld = p.resetHeld := rfl

@[simp] theorem Part.modRouter_clock (p : Part) (g : Router → Router) : (p.modRouter g).clock = p.clock := rfl

@[simp] theorem Part.modRouter_port (p : Part) (g : Router → Router) : (p.modRouter g).port = p.port := rfl

@[simp] theorem Part.modRouter_router (p : Part) (g : Router → Router) : (p.modRouter g).router = g p.router := rfl

@[simp] theorem Part.modRouter_tracker (p : Part) (g : Router → Router) : (p.modRouter g).tracker = p.tracker := rfl

@[simp] theorem Part.modRouter_profile (p : Part) (g : Router → Router) : (p.modRouter g).profile = p.profile := rfl

@[simp] theorem Part.modRouter_collector (p : Part) (g : Router → Router) : (p.modRouter g).collector = p.collector := rfl

@[simp] theorem Part.modRouter_leak (p : Part) (g : Router → Router) : (p.modRouter g).leak = p.leak := rfl

@[simp] theorem Part.modRouter_station (p : Part) (g : Router → Router) : (p.modRouter g).station = p.station := rfl

@[simp] theorem Part.modRouter_engine (p : Part) (g : Router → Router) : (p.modRouter g).engine = p.engine := rfl

@[simp] theorem Part.modRouter_manifold (p : Part) (g : Router → Router) : (p.modRouter g).manifold = p.manifold := rfl

@[simp] theorem Part.modRouter_tables (p : Part) (g : Router → Router) : (p.modRouter g).tables = p.tables := rfl

@[simp] theorem Part.modRouter_reports (p : Part) (g : Router → Router) : (p.modRouter g).reports = p.reports := rfl

@[simp] theorem Part.modRouter_commands (p : Part) (g : Router → Router) : (p.modRouter g).commands = p.commands := rfl

@[simp] theorem Part.modRouter_alerts (p : Part) (g : Router → Router) : (p.modRouter g).alerts = p.alerts := rfl

@[simp] theorem Part.modRouter_capture (p : Part) (g : Router → Router) : (p.modRouter g).capture = p.capture := rfl

@[simp] theorem Part.modRouter_ringOut (p : Part) (g : Router → Router) : (p.modRouter g).ringOut = p.ringOut := rfl

@[simp] theorem Part.modTables_resetHeld (p : Part) (g : Tables → Tables) : (p.modTables g).resetHeld = p.resetHeld := rfl

@[simp] theorem Part.modTables_clock (p : Part) (g : Tables → Tables) : (p.modTables g).clock = p.clock := rfl

@[simp] theorem Part.modTables_port (p : Part) (g : Tables → Tables) : (p.modTables g).port = p.port := rfl

@[simp] theorem Part.modTables_router (p : Part) (g : Tables → Tables) : (p.modTables g).router = p.router := rfl

@[simp] theorem Part.modTables_tracker (p : Part) (g : Tables → Tables) : (p.modTables g).tracker = p.tracker := rfl

@[simp] theorem Part.modTables_profile (p : Part) (g : Tables → Tables) : (p.modTables g).profile = p.profile := rfl

@[simp] theorem Part.modTables_collector (p : Part) (g : Tables → Tables) : (p.modTables g).collector = p.collector := rfl

@[simp] theorem Part.modTables_leak (p : Part) (g : Tables → Tables) : (p.modTables g).leak = p.leak := rfl

@[simp] theorem Part.modTables_station (p : Part) (g : Tables → Tables) : (p.modTables g).station = p.station := rfl

@[simp] theorem Part.modTables_engine (p : Part) (g : Tables → Tables) : (p.modTables g).engine = p.engine := rfl

@[simp] theorem Part.modTables_manifold (p : Part) (g : Tables → Tables) : (p.modTables g).manifold = p.manifold := rfl

@[simp] theorem Part.modTables_tables (p : Part) (g : Tables → Tables) : (p.modTables g).tables = g p.tables := rfl

@[simp] theorem Part.modTables_reports (p : Part) (g : Tables → Tables) : (p.modTables g).reports = p.reports := rfl

@[simp] theorem Part.modTables_commands (p : Part) (g : Tables → Tables) : (p.modTables g).commands = p.commands := rfl

@[simp] theorem Part.modTables_alerts (p : Part) (g : Tables → Tables) : (p.modTables g).alerts = p.alerts := rfl

@[simp] theorem Part.modTables_capture (p : Part) (g : Tables → Tables) : (p.modTables g).capture = p.capture := rfl

@[simp] theorem Part.modTables_ringOut (p : Part) (g : Tables → Tables) : (p.modTables g).ringOut = p.ringOut := rfl

@[simp] theorem Part.modReports_resetHeld (p : Part) (g : ReportStore → ReportStore) : (p.modReports g).resetHeld = p.resetHeld := rfl

@[simp] theorem Part.modReports_clock (p : Part) (g : ReportStore → ReportStore) : (p.modReports g).clock = p.clock := rfl

@[simp] theorem Part.modReports_port (p : Part) (g : ReportStore → ReportStore) : (p.modReports g).port = p.port := rfl

@[simp] theorem Part.modReports_router (p : Part) (g : ReportStore → ReportStore) : (p.modReports g).router = p.router := rfl

@[simp] theorem Part.modReports_tracker (p : Part) (g : ReportStore → ReportStore) : (p.modReports g).tracker = p.tracker := rfl

@[simp] theorem Part.modReports_profile (p : Part) (g : ReportStore → ReportStore) : (p.modReports g).profile = p.profile := rfl

@[simp] theorem Part.modReports_collector (p : Part) (g : ReportStore → ReportStore) : (p.modReports g).collector = p.collector := rfl

@[simp] theorem Part.modReports_leak (p : Part) (g : ReportStore → ReportStore) : (p.modReports g).leak = p.leak := rfl

@[simp] theorem Part.modReports_station (p : Part) (g : ReportStore → ReportStore) : (p.modReports g).station = p.station := rfl

@[simp] theorem Part.modReports_engine (p : Part) (g : ReportStore → ReportStore) : (p.modReports g).engine = p.engine := rfl

@[simp] theorem Part.modReports_manifold (p : Part) (g : ReportStore → ReportStore) : (p.modReports g).manifold = p.manifold := rfl

@[simp] theorem Part.modReports_tables (p : Part) (g : ReportStore → ReportStore) : (p.modReports g).tables = p.tables := rfl

@[simp] theorem Part.modReports_reports (p : Part) (g : ReportStore → ReportStore) : (p.modReports g).reports = g p.reports := rfl

@[simp] theorem Part.modReports_commands (p : Part) (g : ReportStore → ReportStore) : (p.modReports g).commands = p.commands := rfl

@[simp] theorem Part.modReports_alerts (p : Part) (g : ReportStore → ReportStore) : (p.modReports g).alerts = p.alerts := rfl

@[simp] theorem Part.modReports_capture (p : Part) (g : ReportStore → ReportStore) : (p.modReports g).capture = p.capture := rfl

@[simp] theorem Part.modReports_ringOut (p : Part) (g : ReportStore → ReportStore) : (p.modReports g).ringOut = p.ringOut := rfl

@[simp] theorem Part.modPort_resetHeld (p : Part) (g : Port → Port) : (p.modPort g).resetHeld = p.resetHeld := rfl

@[simp] theorem Part.modPort_clock (p : Part) (g : Port → Port) : (p.modPort g).clock = p.clock := rfl

@[simp] theorem Part.modPort_port (p : Part) (g : Port → Port) : (p.modPort g).port = g p.port := rfl

@[simp] theorem Part.modPort_router (p : Part) (g : Port → Port) : (p.modPort g).router = p.router := rfl

@[simp] theorem Part.modPort_tracker (p : Part) (g : Port → Port) : (p.modPort g).tracker = p.tracker := rfl

@[simp] theorem Part.modPort_profile (p : Part) (g : Port → Port) : (p.modPort g).profile = p.profile := rfl

@[simp] theorem Part.modPort_collector (p : Part) (g : Port → Port) : (p.modPort g).collector = p.collector := rfl

@[simp] theorem Part.modPort_leak (p : Part) (g : Port → Port) : (p.modPort g).leak = p.leak := rfl

@[simp] theorem Part.modPort_station (p : Part) (g : Port → Port) : (p.modPort g).station = p.station := rfl

@[simp] theorem Part.modPort_engine (p : Part) (g : Port → Port) : (p.modPort g).engine = p.engine := rfl

@[simp] theorem Part.modPort_manifold (p : Part) (g : Port → Port) : (p.modPort g).manifold = p.manifold := rfl

@[simp] theorem Part.modPort_tables (p : Part) (g : Port → Port) : (p.modPort g).tables = p.tables := rfl

@[simp] theorem Part.modPort_reports (p : Part) (g : Port → Port) : (p.modPort g).reports = p.reports := rfl

@[simp] theorem Part.modPort_commands (p : Part) (g : Port → Port) : (p.modPort g).commands = p.commands := rfl

@[simp] theorem Part.modPort_alerts (p : Part) (g : Port → Port) : (p.modPort g).alerts = p.alerts := rfl

@[simp] theorem Part.modPort_capture (p : Part) (g : Port → Port) : (p.modPort g).capture = p.capture := rfl

@[simp] theorem Part.modPort_ringOut (p : Part) (g : Port → Port) : (p.modPort g).ringOut = p.ringOut := rfl

@[simp] theorem Part.modCommands_resetHeld (p : Part) (g : CommandUnit → CommandUnit) : (p.modCommands g).resetHeld = p.resetHeld := rfl

@[simp] theorem Part.modCommands_clock (p : Part) (g : CommandUnit → CommandUnit) : (p.modCommands g).clock = p.clock := rfl

@[simp] theorem Part.modCommands_port (p : Part) (g : CommandUnit → CommandUnit) : (p.modCommands g).port = p.port := rfl

@[simp] theorem Part.modCommands_router (p : Part) (g : CommandUnit → CommandUnit) : (p.modCommands g).router = p.router := rfl

@[simp] theorem Part.modCommands_tracker (p : Part) (g : CommandUnit → CommandUnit) : (p.modCommands g).tracker = p.tracker := rfl

@[simp] theorem Part.modCommands_profile (p : Part) (g : CommandUnit → CommandUnit) : (p.modCommands g).profile = p.profile := rfl

@[simp] theorem Part.modCommands_collector (p : Part) (g : CommandUnit → CommandUnit) : (p.modCommands g).collector = p.collector := rfl

@[simp] theorem Part.modCommands_leak (p : Part) (g : CommandUnit → CommandUnit) : (p.modCommands g).leak = p.leak := rfl

@[simp] theorem Part.modCommands_station (p : Part) (g : CommandUnit → CommandUnit) : (p.modCommands g).station = p.station := rfl

@[simp] theorem Part.modCommands_engine (p : Part) (g : CommandUnit → CommandUnit) : (p.modCommands g).engine = p.engine := rfl

@[simp] theorem Part.modCommands_manifold (p : Part) (g : CommandUnit → CommandUnit) : (p.modCommands g).manifold = p.manifold := rfl

@[simp] theorem Part.modCommands_tables (p : Part) (g : CommandUnit → CommandUnit) : (p.modCommands g).tables = p.tables := rfl

@[simp] theorem Part.modCommands_reports (p : Part) (g : CommandUnit → CommandUnit) : (p.modCommands g).reports = p.reports := rfl

@[simp] theorem Part.modCommands_commands (p : Part) (g : CommandUnit → CommandUnit) : (p.modCommands g).commands = g p.commands := rfl

@[simp] theorem Part.modCommands_alerts (p : Part) (g : CommandUnit → CommandUnit) : (p.modCommands g).alerts = p.alerts := rfl

@[simp] theorem Part.modCommands_capture (p : Part) (g : CommandUnit → CommandUnit) : (p.modCommands g).capture = p.capture := rfl

@[simp] theorem Part.modCommands_ringOut (p : Part) (g : CommandUnit → CommandUnit) : (p.modCommands g).ringOut = p.ringOut := rfl

/-! ## Raising an alert source -/

@[simp] theorem Part.raise_resetHeld (p : Part) (x : Source) (d n : BitVec 16) :
    (p.raise x d n).resetHeld = p.resetHeld := rfl

@[simp] theorem Part.raise_clock (p : Part) (x : Source) (d n : BitVec 16) :
    (p.raise x d n).clock = p.clock := rfl

@[simp] theorem Part.raise_port (p : Part) (x : Source) (d n : BitVec 16) :
    (p.raise x d n).port = p.port := rfl

@[simp] theorem Part.raise_router (p : Part) (x : Source) (d n : BitVec 16) :
    (p.raise x d n).router = p.router := rfl

@[simp] theorem Part.raise_tracker (p : Part) (x : Source) (d n : BitVec 16) :
    (p.raise x d n).tracker = p.tracker := rfl

@[simp] theorem Part.raise_profile (p : Part) (x : Source) (d n : BitVec 16) :
    (p.raise x d n).profile = p.profile := rfl

@[simp] theorem Part.raise_collector (p : Part) (x : Source) (d n : BitVec 16) :
    (p.raise x d n).collector = p.collector := rfl

@[simp] theorem Part.raise_leak (p : Part) (x : Source) (d n : BitVec 16) :
    (p.raise x d n).leak = p.leak := rfl

@[simp] theorem Part.raise_station (p : Part) (x : Source) (d n : BitVec 16) :
    (p.raise x d n).station = p.station := rfl

@[simp] theorem Part.raise_engine (p : Part) (x : Source) (d n : BitVec 16) :
    (p.raise x d n).engine = p.engine := rfl

@[simp] theorem Part.raise_manifold (p : Part) (x : Source) (d n : BitVec 16) :
    (p.raise x d n).manifold = p.manifold := rfl

@[simp] theorem Part.raise_tables (p : Part) (x : Source) (d n : BitVec 16) :
    (p.raise x d n).tables = p.tables := rfl

@[simp] theorem Part.raise_reports (p : Part) (x : Source) (d n : BitVec 16) :
    (p.raise x d n).reports = p.reports := rfl

@[simp] theorem Part.raise_commands (p : Part) (x : Source) (d n : BitVec 16) :
    (p.raise x d n).commands = p.commands := rfl

@[simp] theorem Part.raise_alerts (p : Part) (x : Source) (d n : BitVec 16) :
    (p.raise x d n).alerts = p.alerts.set x.number { pending := true, detail := d, report := n } := rfl

@[simp] theorem Part.raise_capture (p : Part) (x : Source) (d n : BitVec 16) :
    (p.raise x d n).capture = p.capture := rfl

@[simp] theorem Part.raise_ringOut (p : Part) (x : Source) (d n : BitVec 16) :
    (p.raise x d n).ringOut = p.ringOut := rfl

/-! ## A collector without a job -/

@[simp] theorem Collector.idled_state (c : Collector) (x : CollectorState) : (c.idled x).state = x := rfl
@[simp] theorem Collector.idled_job (c : Collector) (x : CollectorState) : (c.idled x).job = none := rfl
@[simp] theorem Collector.idled_report (c : Collector) (x : CollectorState) : (c.idled x).report = .none := rfl
@[simp] theorem Collector.idled_exhausted (c : Collector) (x : CollectorState) : (c.idled x).exhausted = c.exhausted := rfl

/-! ## Steps -/

/-- A step with a command in front is that command's effect on the state with the rest of the queue. -/
theorem step_front (s : State) (i : Instr) (rest : List Instr) (h : s.pending = i :: rest) :
    step s = exec i { s with pending := rest } := by
  simp [step, h]

/-- A step on an empty queue changes nothing. -/
theorem step_empty (s : State) (h : s.pending = []) : step s = .next s := by simp [step, h]

/-- A row's effect keeps the waiting commands. -/
theorem State.become_inv {s t : State} {p : Part} (h : s.become p = .next t) : t = { s with part := p } := by
  simp [State.become] at h; exact h.symm

/-- A guarded row answers a next state only for well-formed operands, and then the row's effect. -/
theorem State.take_inv {s t : State} {i : Instr} {p : Part} (h : s.take i p = .next t) :
    i.wellFormed = true ∧ t = { s with part := p } := by
  unfold State.take at h
  split at h
  · exact ⟨by assumption, State.become_inv h⟩
  · cases h

end Sys2Proof.Machine
end

