-- ==== Sys2Proof/Laws/Outer.lean ====
section
/-!
SUPPORT. What the work of stations, engine, sequencers and manifold never touches: the reset line, the time, the ring
port, the router, the command unit, the snapshot capture and the frames put on the ring. One lemma for each operation.
-/
namespace Sys2Proof.Machine

open Sys2Proof

/-- The fields that no block of a station, nor engine nor manifold, writes. -/
structure Outer where
  resetHeld : Bool
  clock : Nat
  port : Port
  router : Router
  commands : CommandUnit
  capture : Option Capture
  ringOut : List (Pass × Frame)

/-- The outer fields of a part. -/
def Part.outer (p : Part) : Outer := ⟨p.resetHeld, p.clock, p.port, p.router, p.commands, p.capture, p.ringOut⟩

theorem Part.outer_resetHeld {p q : Part} (h : p.outer = q.outer) : p.resetHeld = q.resetHeld := congrArg Outer.resetHeld h
theorem Part.outer_clock {p q : Part} (h : p.outer = q.outer) : p.clock = q.clock := congrArg Outer.clock h
theorem Part.outer_port {p q : Part} (h : p.outer = q.outer) : p.port = q.port := congrArg Outer.port h
theorem Part.outer_router {p q : Part} (h : p.outer = q.outer) : p.router = q.router := congrArg Outer.router h
theorem Part.outer_commands {p q : Part} (h : p.outer = q.outer) : p.commands = q.commands := congrArg Outer.commands h
theorem Part.outer_capture {p q : Part} (h : p.outer = q.outer) : p.capture = q.capture := congrArg Outer.capture h
theorem Part.outer_ringOut {p q : Part} (h : p.outer = q.outer) : p.ringOut = q.ringOut := congrArg Outer.ringOut h

/-- A fold of operations that keep the outer fields keeps them. -/
theorem foldl_outer {α : Type} (f : Part → α → Part) (h : ∀ p x, (f p x).outer = p.outer) (l : List α) (p : Part) :
    (l.foldl f p).outer = p.outer := by
  induction l generalizing p with
  | nil => rfl
  | cons x xs ih => rw [List.foldl_cons, ih, h]

@[simp] theorem Part.modStation_outer (p : Part) (st : Stn) (g : Station → Station) : (p.modStation st g).outer = p.outer := rfl
@[simp] theorem Part.modTracker_outer (p : Part) (st : Stn) (g : Tracker → Tracker) : (p.modTracker st g).outer = p.outer := rfl
@[simp] theorem Part.modProfile_outer (p : Part) (st : Stn) (g : Executor → Executor) : (p.modProfile st g).outer = p.outer := rfl
@[simp] theorem Part.modCollector_outer (p : Part) (st : Stn) (g : Collector → Collector) : (p.modCollector st g).outer = p.outer := rfl
@[simp] theorem Part.modLeak_outer (p : Part) (st : Stn) (g : Sequencer → Sequencer) : (p.modLeak st g).outer = p.outer := rfl
@[simp] theorem Part.modManifold_outer (p : Part) (g : Manifold → Manifold) : (p.modManifold g).outer = p.outer := rfl
@[simp] theorem Part.modEngine_outer (p : Part) (g : Engine → Engine) : (p.modEngine g).outer = p.outer := rfl
@[simp] theorem Part.modTables_outer (p : Part) (g : Tables → Tables) : (p.modTables g).outer = p.outer := rfl
@[simp] theorem Part.modReports_outer (p : Part) (g : ReportStore → ReportStore) : (p.modReports g).outer = p.outer := rfl
@[simp] theorem Part.raise_outer (p : Part) (x : Source) (d n : BitVec 16) : (p.raise x d n).outer = p.outer := rfl

@[simp] theorem Part.noteClosed_outer (p : Part) : (Part.noteClosed p).outer = p.outer := by
  unfold Part.noteClosed
  try dsimp only
  repeat' split
  all_goals simp

@[simp] theorem Part.countDeferral_outer (p : Part) (st : Stn) : (Part.countDeferral p st).outer = p.outer := by
  unfold Part.countDeferral
  try dsimp only
  all_goals simp

@[simp] theorem Part.modLine_outer (p : Part) (st : Stn) (id : Nat) (f : CheckLine → CheckLine) : (Part.modLine p st id f).outer = p.outer := by
  unfold Part.modLine
  try dsimp only
  all_goals simp

@[simp] theorem Part.writeNoiseLines_outer (p : Part) (e : Evaluation) : (Part.writeNoiseLines p e).outer = p.outer := by
  unfold Part.writeNoiseLines
  try dsimp only
  all_goals simp

@[simp] theorem Part.analysisTake_outer (p : Part) : (Part.analysisTake p).outer = p.outer := by
  unfold Part.analysisTake
  try dsimp only
  repeat' split
  all_goals simp

@[simp] theorem Part.analysisJoin_outer (p : Part) (st : Stn) : (Part.analysisJoin p st).outer = p.outer := by
  unfold Part.analysisJoin
  try dsimp only
  all_goals simp

@[simp] theorem Part.evaluationEnd_outer (p : Part) : (Part.evaluationEnd p).outer = p.outer := by
  unfold Part.evaluationEnd
  try dsimp only
  repeat' split
  all_goals simp

@[simp] theorem Part.abandonEvaluation_outer (p : Part) (st : Stn) : (Part.abandonEvaluation p st).outer = p.outer := by
  unfold Part.abandonEvaluation
  try dsimp only
  repeat' split
  all_goals simp

@[simp] theorem Part.leaveQuiet_outer (p : Part) (st : Stn) : (Part.leaveQuiet p st).outer = p.outer := by
  unfold Part.leaveQuiet
  try dsimp only
  all_goals simp

@[simp] theorem Part.attemptEnds_outer (p : Part) (st : Stn) (cause : Cause) : (Part.attemptEnds p st cause).outer = p.outer := by
  unfold Part.attemptEnds
  try dsimp only
  repeat' split
  all_goals simp

@[simp] theorem Part.noticeAt_outer (forced : Bool) (p : Part) (st : Stn) : (Part.noticeAt forced p st).outer = p.outer := by
  unfold Part.noticeAt
  try dsimp only
  repeat' split
  all_goals simp

@[simp] theorem Part.airNotice_outer (p : Part) (forced : Bool) : (Part.airNotice p forced).outer = p.outer := by
  unfold Part.airNotice
  exact foldl_outer _ (fun p x => Part.noticeAt_outer forced p x) _ p

@[simp] theorem Part.openVent_outer (p : Part) (st : Stn) (kind : VentKind) : (Part.openVent p st kind).outer = p.outer := by
  unfold Part.openVent
  try dsimp only
  all_goals simp

@[simp] theorem Part.undefer_outer (p : Part) (st : Stn) : (Part.undefer p st).outer = p.outer := by
  unfold Part.undefer
  try dsimp only
  all_goals simp

@[simp] theorem Part.defer_outer (p : Part) (st : Stn) (what : Held) : (Part.defer p st what).outer = p.outer := by
  unfold Part.defer
  try dsimp only
  all_goals simp

@[simp] theorem Part.grantHead_outer (p : Part) (st : Stn) (rest : List Stn) : (Part.grantHead p st rest).outer = p.outer := by
  unfold Part.grantHead
  try dsimp only
  all_goals simp

@[simp] theorem Part.grantTest_outer (p : Part) : (Part.grantTest p).outer = p.outer := by
  unfold Part.grantTest
  try dsimp only
  repeat' split
  all_goals simp

@[simp] theorem Part.releaseEntry_outer (p : Part) (x : Stn × Held) : (Part.releaseEntry p x).outer = p.outer := by
  unfold Part.releaseEntry
  try dsimp only
  repeat' split
  all_goals simp

@[simp] theorem Part.releaseDeferred_outer (p : Part) : (Part.releaseDeferred p).outer = p.outer := by
  unfold Part.releaseDeferred
  split
  · rw [Part.modManifold_outer]
    exact foldl_outer _ (fun p x => Part.releaseEntry_outer p x) _ p
  · rfl

@[simp] theorem Part.gateSettle_outer (p : Part) : (Part.gateSettle p).outer = p.outer := by
  unfold Part.gateSettle
  try dsimp only
  all_goals simp

@[simp] theorem Part.releaseGrant_outer (p : Part) : (Part.releaseGrant p).outer = p.outer := by
  unfold Part.releaseGrant
  try dsimp only
  all_goals simp

@[simp] theorem Part.purgeBegin_outer (p : Part) : (Part.purgeBegin p).outer = p.outer := by
  unfold Part.purgeBegin
  try dsimp only
  repeat' split
  all_goals simp

@[simp] theorem Part.goToVent_outer (p : Part) (st : Stn) : (Part.goToVent p st).outer = p.outer := by
  unfold Part.goToVent
  try dsimp only
  repeat' split
  all_goals simp

@[simp] theorem Part.giveUpNoise_outer (p : Part) (st : Stn) : (Part.giveUpNoise p st).outer = p.outer := by
  unfold Part.giveUpNoise
  try dsimp only
  repeat' split
  all_goals simp

@[simp] theorem Part.abandonLeak_outer (p : Part) (st : Stn) : (Part.abandonLeak p st).outer = p.outer := by
  unfold Part.abandonLeak
  try dsimp only
  repeat' split
  all_goals simp

@[simp] theorem Part.stopBlocks_outer (p : Part) (st : Stn) : (Part.stopBlocks p st).outer = p.outer := by
  unfold Part.stopBlocks
  try dsimp only
  all_goals simp

@[simp] theorem Part.finishLines_outer (p : Part) (st : Stn) : (Part.finishLines p st).outer = p.outer := by
  unfold Part.finishLines
  try dsimp only
  all_goals simp

@[simp] theorem Part.reportAlerts_outer (p : Part) (st : Stn) (kind : EndKind) (number : BitVec 16) : (Part.reportAlerts p st kind number).outer = p.outer := by
  unfold Part.reportAlerts
  try dsimp only
  repeat' split
  all_goals simp

@[simp] theorem Part.writeReport_outer (p : Part) (st : Stn) (kind : EndKind) : (Part.writeReport p st kind).outer = p.outer := by
  unfold Part.writeReport
  try dsimp only
  all_goals simp

@[simp] theorem Part.dropReference_outer (p : Part) (k : Kind) (r : Option SlotRef) : (Part.dropReference p k r).outer = p.outer := by
  unfold Part.dropReference
  try dsimp only
  repeat' split
  all_goals simp

@[simp] theorem Part.releaseTables_outer (p : Part) (st : Stn) : (Part.releaseTables p st).outer = p.outer := by
  unfold Part.releaseTables
  try dsimp only
  all_goals simp

@[simp] theorem Part.endTest_outer (p : Part) (st : Stn) (kind : EndKind) (final : StationState) : (Part.endTest p st kind final).outer = p.outer := by
  unfold Part.endTest
  try dsimp only
  all_goals simp

@[simp] theorem Part.halt_outer (p : Part) (st : Stn) (reason : HaltReason) : (Part.halt p st reason).outer = p.outer := by
  unfold Part.halt
  try dsimp only
  repeat' split
  all_goals simp

@[simp] theorem Part.enterStopping_outer (p : Part) (st : Stn) : (Part.enterStopping p st).outer = p.outer := by
  unfold Part.enterStopping
  try dsimp only
  all_goals simp

@[simp] theorem Part.enterFinishing_outer (p : Part) (st : Stn) (early : Bool) : (Part.enterFinishing p st early).outer = p.outer := by
  unfold Part.enterFinishing
  try dsimp only
  all_goals simp

@[simp] theorem Part.indexTimerExpiry_outer (p : Part) (st : Stn) : (Part.indexTimerExpiry p st).outer = p.outer := by
  unfold Part.indexTimerExpiry
  try dsimp only
  repeat' split
  all_goals simp

@[simp] theorem Part.stillGatesExpiry_outer (p : Part) (st : Stn) : (Part.stillGatesExpiry p st).outer = p.outer := by
  unfold Part.stillGatesExpiry
  try dsimp only
  repeat' split
  all_goals simp

@[simp] theorem Part.overspeedTest_outer (p : Part) (st : Stn) : (Part.overspeedTest p st).outer = p.outer := by
  unfold Part.overspeedTest
  split <;> simp

@[simp] theorem Part.speedGateComplete_outer (p : Part) (st : Stn) : (Part.speedGateComplete p st).outer = p.outer := by
  unfold Part.speedGateComplete
  try dsimp only
  repeat' split
  all_goals simp

@[simp] theorem Part.trackerReports_outer (p : Part) (st : Stn) (gate : Bool) : (Part.trackerReports p st gate).outer = p.outer := by
  unfold Part.trackerReports
  cases gate <;> simp

@[simp] theorem Part.trackerWork_outer (p : Part) (st : Stn) : (Part.trackerWork p st).outer = p.outer := by
  unfold Part.trackerWork
  try dsimp only
  repeat' split
  all_goals simp

@[simp] theorem Part.collectorSettleEnd_outer (p : Part) (st : Stn) : (Part.collectorSettleEnd p st).outer = p.outer := by
  unfold Part.collectorSettleEnd
  try dsimp only
  repeat' split
  all_goals simp

@[simp] theorem Part.windowStart_outer (p : Part) (st : Stn) : (Part.windowStart p st).outer = p.outer := by
  unfold Part.windowStart
  try dsimp only
  repeat' split
  all_goals simp

@[simp] theorem Part.windowValid_outer (p : Part) (st : Stn) : (Part.windowValid p st).outer = p.outer := by
  unfold Part.windowValid
  try dsimp only
  all_goals simp

@[simp] theorem Part.windowInvalid_outer (p : Part) (st : Stn) (cause : Cause) : (Part.windowInvalid p st cause).outer = p.outer := by
  unfold Part.windowInvalid
  try dsimp only
  all_goals simp

theorem Part.angleTests_outer (p : Part) (st : Stn) (after : Part → Part) (h : ∀ q, (after q).outer = q.outer) :
    (Part.angleTests p st after).outer = p.outer := by
  unfold Part.angleTests
  dsimp only
  repeat' split
  all_goals simp [h]

@[simp] theorem Part.completionTests_outer (st : Stn) (p : Part) : (Part.completionTests st p).outer = p.outer := by
  unfold Part.completionTests
  try dsimp only
  repeat' split
  all_goals simp

@[simp] theorem Part.windowComplete_outer (p : Part) (st : Stn) : (Part.windowComplete p st).outer = p.outer := by
  unfold Part.windowComplete
  try dsimp only
  repeat' split
  all_goals simp [Part.angleTests_outer _ _ _ (fun q => Part.completionTests_outer st q)]

@[simp] theorem Part.windowOvertime_outer (p : Part) (st : Stn) : (Part.windowOvertime p st).outer = p.outer := by
  unfold Part.windowOvertime
  try dsimp only
  repeat' split
  all_goals simp

@[simp] theorem Part.placeSamples_outer (p : Part) (st : Stn) : (Part.placeSamples p st).outer = p.outer := by
  unfold Part.placeSamples
  try dsimp only
  all_goals simp

@[simp] theorem Part.countWindow_outer (p : Part) (st : Stn) : (Part.countWindow p st).outer = p.outer := by
  unfold Part.countWindow
  try dsimp only
  all_goals simp

@[simp] theorem Part.collect_outer (p : Part) (st : Stn) : (Part.collect p st).outer = p.outer := by
  unfold Part.collect
  try dsimp only
  repeat' split
  all_goals simp [Part.angleTests_outer _ _ _ (fun q => Part.windowOvertime_outer q st)]

@[simp] theorem Part.awaitStart_outer (p : Part) (st : Stn) : (Part.awaitStart p st).outer = p.outer := by
  unfold Part.awaitStart
  try dsimp only
  repeat' split
  all_goals simp

@[simp] theorem Part.collectorWork_outer (pre p : Part) (st : Stn) : (Part.collectorWork pre p st).outer = p.outer := by
  unfold Part.collectorWork
  try dsimp only
  repeat' split
  all_goals simp

@[simp] theorem Part.endFill_outer (p : Part) : (Part.endFill p).outer = p.outer := by
  unfold Part.endFill
  try dsimp only
  all_goals simp

@[simp] theorem Part.fillReached_outer (p : Part) (st : Stn) (pressure : Nat) : (Part.fillReached p st pressure).outer = p.outer := by
  unfold Part.fillReached
  try dsimp only
  repeat' split
  all_goals simp

@[simp] theorem Part.leakBegin_outer (p : Part) (st : Stn) (w : Which) : (Part.leakBegin p st w).outer = p.outer := by
  unfold Part.leakBegin
  try dsimp only
  all_goals simp

@[simp] theorem Part.manifoldTimeout_outer (p : Part) (st : Stn) : (Part.manifoldTimeout p st).outer = p.outer := by
  unfold Part.manifoldTimeout
  try dsimp only
  repeat' split
  all_goals simp

@[simp] theorem Part.fillTimeout_outer (p : Part) (st : Stn) : (Part.fillTimeout p st).outer = p.outer := by
  unfold Part.fillTimeout
  try dsimp only
  repeat' split
  all_goals simp

@[simp] theorem Part.leakSettleEnd_outer (p : Part) (st : Stn) : (Part.leakSettleEnd p st).outer = p.outer := by
  unfold Part.leakSettleEnd
  try dsimp only
  repeat' split
  all_goals simp

@[simp] theorem Part.measureComplete_outer (p : Part) (st : Stn) : (Part.measureComplete p st).outer = p.outer := by
  unfold Part.measureComplete
  try dsimp only
  repeat' split
  all_goals simp

@[simp] theorem Part.ventEnd_outer (p : Part) (st : Stn) : (Part.ventEnd p st).outer = p.outer := by
  unfold Part.ventEnd
  try dsimp only
  repeat' split
  all_goals simp

@[simp] theorem Part.purgeEnd_outer (p : Part) : (Part.purgeEnd p).outer = p.outer := by
  unfold Part.purgeEnd
  try dsimp only
  repeat' split
  all_goals simp

@[simp] theorem Part.purgeWork_outer (p : Part) : (Part.purgeWork p).outer = p.outer := by
  unfold Part.purgeWork
  try dsimp only
  repeat' split
  all_goals simp

@[simp] theorem Part.measureWork_outer (p : Part) (st : Stn) : (Part.measureWork p st).outer = p.outer := by
  unfold Part.measureWork
  try dsimp only
  all_goals simp

@[simp] theorem Part.leakWork_outer (pre p : Part) (st : Stn) : (Part.leakWork pre p st).outer = p.outer := by
  unfold Part.leakWork
  try dsimp only
  repeat' split
  all_goals simp

@[simp] theorem Part.giveTarget_outer (p : Part) (st : Stn) (rpm : Int) : (Part.giveTarget p st rpm).outer = p.outer := by
  unfold Part.giveTarget
  try dsimp only
  repeat' split
  all_goals simp

@[simp] theorem Part.startRung_outer (p : Part) (st : Stn) : (Part.startRung p st).outer = p.outer := by
  unfold Part.startRung
  try dsimp only
  all_goals simp

@[simp] theorem Part.beginKind_outer (p : Part) (st : Stn) (x : Option Step) : (Part.beginKind p st x).outer = p.outer := by
  unfold Part.beginKind
  try dsimp only
  repeat' split
  all_goals simp

@[simp] theorem Part.beginStep_outer (p : Part) (st : Stn) (i : Nat) : (Part.beginStep p st i).outer = p.outer := by
  unfold Part.beginStep
  try dsimp only
  all_goals simp

@[simp] theorem Part.endStep_outer (p : Part) (st : Stn) (next : Nat) : (Part.endStep p st next).outer = p.outer := by
  unfold Part.endStep
  try dsimp only
  repeat' split
  all_goals simp

@[simp] theorem Part.endStepNext_outer (p : Part) (st : Stn) : (Part.endStepNext p st).outer = p.outer := by
  unfold Part.endStepNext
  try dsimp only
  all_goals simp

@[simp] theorem Part.endProfile_outer (p : Part) (st : Stn) (early : Bool) : (Part.endProfile p st early).outer = p.outer := by
  unfold Part.endProfile
  try dsimp only
  repeat' split
  all_goals simp

@[simp] theorem Part.rampReached_outer (p : Part) (st : Stn) : (Part.rampReached p st).outer = p.outer := by
  unfold Part.rampReached
  try dsimp only
  repeat' split
  all_goals simp

@[simp] theorem Part.rampWork_outer (p : Part) (st : Stn) (rate : Nat) : (Part.rampWork p st rate).outer = p.outer := by
  unfold Part.rampWork
  try dsimp only
  all_goals simp

@[simp] theorem Part.torqueCheck_outer (p : Part) (st : Stn) (k : TorqueCheck) : (Part.torqueCheck p st k).outer = p.outer := by
  unfold Part.torqueCheck
  try dsimp only
  repeat' split
  all_goals simp

@[simp] theorem Part.holdEnd_outer (p : Part) (st : Stn) : (Part.holdEnd p st).outer = p.outer := by
  unfold Part.holdEnd
  try dsimp only
  repeat' split
  all_goals simp

@[simp] theorem Part.holdWork_outer (p : Part) (st : Stn) : (Part.holdWork p st).outer = p.outer := by
  unfold Part.holdWork
  try dsimp only
  all_goals simp

@[simp] theorem Part.rungDone_outer (p : Part) (st : Stn) (up wrap : Bool) : (Part.rungDone p st up wrap).outer = p.outer := by
  unfold Part.rungDone
  try dsimp only
  repeat' split
  all_goals simp

@[simp] theorem Part.rungDwellDone_outer (p : Part) (st : Stn) : (Part.rungDwellDone p st).outer = p.outer := by
  unfold Part.rungDwellDone
  try dsimp only
  repeat' split
  all_goals simp

@[simp] theorem Part.rungMeasureDone_outer (p : Part) (st : Stn) (report : StepReport) : (Part.rungMeasureDone p st report).outer = p.outer := by
  unfold Part.rungMeasureDone
  try dsimp only
  repeat' split
  all_goals simp

@[simp] theorem Part.rungReached_outer (p : Part) (st : Stn) (dwell : Nat) (measure : Bool) : (Part.rungReached p st dwell measure).outer = p.outer := by
  unfold Part.rungReached
  try dsimp only
  repeat' split
  all_goals simp

@[simp] theorem Part.ladderWork_outer (p : Part) (st : Stn) (rate dwell : Nat) (measure : Bool) (report : StepReport) : (Part.ladderWork p st rate dwell measure report).outer = p.outer := by
  unfold Part.ladderWork
  try dsimp only
  repeat' split
  all_goals simp

@[simp] theorem Part.reversalDwellEnd_outer (p : Part) (st : Stn) : (Part.reversalDwellEnd p st).outer = p.outer := by
  unfold Part.reversalDwellEnd
  try dsimp only
  repeat' split
  all_goals simp

@[simp] theorem Part.noiseStepEnd_outer (p : Part) (st : Stn) (report : StepReport) : (Part.noiseStepEnd p st report).outer = p.outer := by
  unfold Part.noiseStepEnd
  try dsimp only
  repeat' split
  all_goals simp

@[simp] theorem Part.leakSequenceStart_outer (p : Part) (st : Stn) (phase : Phase) : (Part.leakSequenceStart p st phase).outer = p.outer := by
  unfold Part.leakSequenceStart
  try dsimp only
  repeat' split
  all_goals simp

@[simp] theorem Part.waitLeakEnd_outer (p : Part) (st : Stn) (phase : Phase) : (Part.waitLeakEnd p st phase).outer = p.outer := by
  unfold Part.waitLeakEnd
  try dsimp only
  repeat' split
  all_goals simp

@[simp] theorem Part.leakStepWork_outer (p : Part) (st : Stn) (phase : Phase) : (Part.leakStepWork p st phase).outer = p.outer := by
  unfold Part.leakStepWork
  try dsimp only
  repeat' split
  all_goals simp

@[simp] theorem Part.repeatWork_outer (p : Part) (st : Stn) (count : Nat) : (Part.repeatWork p st count).outer = p.outer := by
  unfold Part.repeatWork
  try dsimp only
  repeat' split
  all_goals simp

@[simp] theorem Part.endRepeatWork_outer (p : Part) (st : Stn) : (Part.endRepeatWork p st).outer = p.outer := by
  unfold Part.endRepeatWork
  try dsimp only
  repeat' split
  all_goals simp

@[simp] theorem Part.exitIfFailedWork_outer (p : Part) (st : Stn) : (Part.exitIfFailedWork p st).outer = p.outer := by
  unfold Part.exitIfFailedWork
  try dsimp only
  repeat' split
  all_goals simp

@[simp] theorem Part.stopIfRejectedWork_outer (p : Part) (st : Stn) : (Part.stopIfRejectedWork p st).outer = p.outer := by
  unfold Part.stopIfRejectedWork
  try dsimp only
  repeat' split
  all_goals simp

@[simp] theorem Part.stepWork_outer (pre p : Part) (st : Stn) : (Part.stepWork pre p st).outer = p.outer := by
  unfold Part.stepWork
  try dsimp only
  repeat' split
  all_goals simp

@[simp] theorem Part.runDown_outer (p : Part) (st : Stn) : (Part.runDown p st).outer = p.outer := by
  unfold Part.runDown
  try dsimp only
  all_goals simp

@[simp] theorem Part.profileWork_outer (pre p : Part) (st : Stn) : (Part.profileWork pre p st).outer = p.outer := by
  unfold Part.profileWork
  try dsimp only
  repeat' split
  all_goals simp

@[simp] theorem Part.silenceWork_outer (p : Part) (st : Stn) : (Part.silenceWork p st).outer = p.outer := by
  unfold Part.silenceWork
  try dsimp only
  repeat' split
  all_goals simp

@[simp] theorem Part.prepToRunning_outer (p : Part) (st : Stn) : (Part.prepToRunning p st).outer = p.outer := by
  unfold Part.prepToRunning
  try dsimp only
  repeat' split
  all_goals simp

@[simp] theorem Part.prepTimeout_outer (p : Part) (st : Stn) : (Part.prepTimeout p st).outer = p.outer := by
  unfold Part.prepTimeout
  try dsimp only
  repeat' split
  all_goals simp

@[simp] theorem Part.prepWork_outer (p : Part) (st : Stn) : (Part.prepWork p st).outer = p.outer := by
  unfold Part.prepWork
  try dsimp only
  repeat' split
  all_goals simp

@[simp] theorem Part.finishingEnd_outer (pre p : Part) (st : Stn) : (Part.finishingEnd pre p st).outer = p.outer := by
  unfold Part.finishingEnd
  try dsimp only
  repeat' split
  all_goals simp

@[simp] theorem Part.stoppingEnd_outer (pre p : Part) (st : Stn) : (Part.stoppingEnd pre p st).outer = p.outer := by
  unfold Part.stoppingEnd
  try dsimp only
  repeat' split
  all_goals simp

@[simp] theorem Part.controlWork_outer (pre p : Part) (st : Stn) : (Part.controlWork pre p st).outer = p.outer := by
  unfold Part.controlWork
  try dsimp only
  repeat' split
  all_goals simp

@[simp] theorem Part.doWork_outer (pre p : Part) (w : Work) : (Part.doWork pre p w).outer = p.outer := by
  unfold Part.doWork
  try dsimp only
  repeat' split
  all_goals simp

end Sys2Proof.Machine
end

