-- ==== Sys2Proof/Laws/Gate.lean ====
section
/-!
SUPPORT. What the air gate and the notices of air events can do: which blocks they leave alone, what a notice does to a
collector, and that they keep the law of the manifold.
-/
namespace Sys2Proof.Machine

open Sys2Proof

/-! ## Stations up to their counters -/

/-- The four stations agree but for their counters, and in these but for the invalid windows and the deferrals. -/
def sameStations (v w : Four Station) : Prop :=
  ∀ st, { v.get st with counters := (w.get st).counters } = w.get st ∧
    (v.get st).counters.valid = (w.get st).counters.valid ∧ (v.get st).counters.steps = (w.get st).counters.steps

theorem sameStations_refl (v : Four Station) : sameStations v v := fun _ => ⟨rfl, rfl, rfl⟩

theorem sameStations_trans {u v w : Four Station} (h : sameStations v u) (k : sameStations w v) : sameStations w u := by
  intro st
  obtain ⟨a, a1, a2⟩ := h st
  obtain ⟨b, b1, b2⟩ := k st
  exact ⟨by rw [← a, ← b], b1.trans a1, b2.trans a2⟩

theorem sameStations_state {v w : Four Station} (h : sameStations v w) (st : Stn) : (v.get st).state = (w.get st).state := by
  have a := congrArg Station.state (h st).1; exact a

theorem sameStations_lines {v w : Four Station} (h : sameStations v w) (st : Stn) : (v.get st).lines = (w.get st).lines := by
  have a := congrArg Station.lines (h st).1; exact a

theorem sameStations_binding {v w : Four Station} (h : sameStations v w) (st : Stn) :
    (v.get st).binding = (w.get st).binding := by
  have a := congrArg Station.binding (h st).1; exact a

/-- A change of one station's invalid windows or deferrals alone. -/
theorem sameStations_counters (v : Four Station) (st : Stn) (f : Station → Counters)
    (h : ∀ x, (f x).valid = x.counters.valid ∧ (f x).steps = x.counters.steps) :
    sameStations (v.set st { v.get st with counters := f (v.get st) }) v := by
  intro i
  rw [Four.get_set]
  split
  · next k => subst k; exact ⟨rfl, h _⟩
  · exact ⟨rfl, rfl, rfl⟩

theorem Counters.invalid_keeps (k : Counters) (cause : Cause) :
    (k.invalid cause).valid = k.valid ∧ (k.invalid cause).steps = k.steps := by cases cause <;> exact ⟨rfl, rfl⟩

/-! ## The frame of the gate -/

/-- What every operation of the gate keeps: the outer fields, trackers, executors, tables, reports and engine, the stations up
to their counters, and the alert sources other than RETRIES_EXHAUSTED. -/
structure GateFrame (p q : Part) : Prop where
  outer : q.outer = p.outer
  tracker : q.tracker = p.tracker
  profile : q.profile = p.profile
  tables : q.tables = p.tables
  reports : q.reports = p.reports
  engine : q.engine = p.engine
  station : sameStations q.station p.station
  sources : q.alerts.length = p.alerts.length
  alerts : ∀ n, n < 12 ∨ 16 ≤ n → q.alertAt n = p.alertAt n

theorem GateFrame.refl (p : Part) : GateFrame p p :=
  ⟨rfl, rfl, rfl, rfl, rfl, rfl, sameStations_refl _, rfl, fun _ _ => rfl⟩

theorem GateFrame.trans {p q r : Part} (h : GateFrame p q) (k : GateFrame q r) : GateFrame p r :=
  ⟨k.outer.trans h.outer, k.tracker.trans h.tracker, k.profile.trans h.profile, k.tables.trans h.tables,
    k.reports.trans h.reports, k.engine.trans h.engine, sameStations_trans h.station k.station,
    k.sources.trans h.sources, fun n hn => (k.alerts n hn).trans (h.alerts n hn)⟩

theorem GateFrame.modManifold (p : Part) (f : Manifold → Manifold) : GateFrame p (p.modManifold f) :=
  ⟨rfl, rfl, rfl, rfl, rfl, rfl, sameStations_refl _, rfl, fun _ _ => rfl⟩

theorem GateFrame.modLeak (p : Part) (st : Stn) (f : Sequencer → Sequencer) : GateFrame p (p.modLeak st f) :=
  ⟨rfl, rfl, rfl, rfl, rfl, rfl, sameStations_refl _, rfl, fun _ _ => rfl⟩

theorem GateFrame.modCollector (p : Part) (st : Stn) (f : Collector → Collector) : GateFrame p (p.modCollector st f) :=
  ⟨rfl, rfl, rfl, rfl, rfl, rfl, sameStations_refl _, rfl, fun _ _ => rfl⟩

theorem GateFrame.raiseRetries (p : Part) (st : Stn) (d n : BitVec 16) :
    GateFrame p (p.raise (.retriesExhausted st) d n) := by
  refine ⟨rfl, rfl, rfl, rfl, rfl, rfl, sameStations_refl _, by simp, fun i hi => ?_⟩
  have : i ≠ 12 + st.val := by have := st.isLt; omega
  simp only [Part.alertAt, Part.raise_alerts, Source.number, List.getD_eq_getElem?_getD]
  rw [List.getElem?_set_ne (by omega)]

theorem GateFrame.countDeferral (p : Part) (st : Stn) : GateFrame p (p.countDeferral st) :=
  ⟨rfl, rfl, rfl, rfl, rfl, rfl,
    sameStations_counters p.station st (fun x => { x.counters with deferrals := bump x.counters.deferrals })
      (fun _ => ⟨rfl, rfl⟩), rfl,
    fun _ _ => rfl⟩

theorem GateFrame.attemptEnds (p : Part) (st : Stn) (cause : Cause) : GateFrame p (p.attemptEnds st cause) := by
  have a : GateFrame p (p.modStation st (fun x => { x with counters := x.counters.invalid cause })) :=
    ⟨rfl, rfl, rfl, rfl, rfl, rfl, sameStations_counters p.station st (fun x => x.counters.invalid cause)
      (fun x => x.counters.invalid_keeps cause), rfl,
      fun _ _ => rfl⟩
  have b := (a.trans (.modManifold _ (fun m => { m with quiet := m.quiet.filter (fun x => x ≠ st) }))).trans
    (.modCollector _ st Collector.retry)
  unfold Part.attemptEnds
  dsimp only
  split
  · exact b.trans (.raiseRetries _ _ _ _)
  · exact b

/-- A fold of operations that keep the frame keeps it. -/
theorem GateFrame.foldl {α : Type} (f : Part → α → Part) (h : ∀ p x, GateFrame p (f p x)) (l : List α) (p : Part) :
    GateFrame p (l.foldl f p) := by
  induction l generalizing p with
  | nil => exact .refl p
  | cons x xs ih => exact (h p x).trans (ih _)

theorem GateFrame.noticeAt (forced : Bool) (p : Part) (st : Stn) : GateFrame p (Part.noticeAt forced p st) := by
  unfold Part.noticeAt
  dsimp only
  split
  · exact .attemptEnds _ _ _
  · exact .refl _

theorem GateFrame.airNotice (p : Part) (forced : Bool) : GateFrame p (p.airNotice forced) :=
  .foldl _ (GateFrame.noticeAt forced) _ _

theorem GateFrame.openVent (p : Part) (st : Stn) (kind : VentKind) : GateFrame p (p.openVent st kind) :=
  (GateFrame.modLeak _ _ _).trans (.airNotice _ _)

theorem GateFrame.undefer (p : Part) (st : Stn) : GateFrame p (p.undefer st) := .modManifold _ _

theorem GateFrame.defer (p : Part) (st : Stn) (what : Held) : GateFrame p (p.defer st what) :=
  (GateFrame.modManifold _ _).trans (.countDeferral _ _)

theorem GateFrame.grantHead (p : Part) (st : Stn) (rest : List Stn) : GateFrame p (p.grantHead st rest) :=
  (((GateFrame.modManifold _ _).trans (.undefer _ _)).trans (.modLeak _ _ _)).trans (.airNotice _ _)

theorem GateFrame.grantTest (p : Part) : GateFrame p p.grantTest := by
  unfold Part.grantTest
  repeat' split
  all_goals first | exact .refl _ | exact .grantHead _ _ _ | exact .defer _ _ _

theorem GateFrame.releaseEntry (p : Part) (x : Stn × Held) : GateFrame p (p.releaseEntry x) := by
  unfold Part.releaseEntry
  split
  · exact .openVent _ _ _
  · exact .refl _

theorem GateFrame.releaseDeferred (p : Part) : GateFrame p p.releaseDeferred := by
  unfold Part.releaseDeferred
  split
  · exact (GateFrame.foldl _ GateFrame.releaseEntry _ _).trans (.modManifold _ _)
  · exact .refl _

/-- The release and the grant test keep the frame. -/
theorem GateFrame.gateSettle (p : Part) : GateFrame p p.gateSettle := (GateFrame.releaseDeferred p).trans (.grantTest _)

theorem GateFrame.purgeBegin (p : Part) : GateFrame p p.purgeBegin := by
  unfold Part.purgeBegin
  split
  · exact .grantTest _
  · exact (GateFrame.modManifold _ _).trans (.airNotice _ _)

theorem GateFrame.noteClosed (p : Part) : GateFrame p p.noteClosed := by
  unfold Part.noteClosed
  split
  · exact .refl _
  · exact .modManifold _ _

theorem GateFrame.goToVent (p : Part) (st : Stn) : GateFrame p (p.goToVent st) := by
  unfold Part.goToVent
  split
  · exact .openVent _ _ _
  · exact (GateFrame.modLeak _ _ _).trans (.defer _ _ _)

theorem GateFrame.windowInvalid (p : Part) (st : Stn) (cause : Cause) : GateFrame p (p.windowInvalid st cause) :=
  (GateFrame.attemptEnds _ _ _).trans (.gateSettle _)

theorem GateFrame.endFill (p : Part) : GateFrame p p.endFill :=
  ((GateFrame.modManifold _ _).trans (.noteClosed _)).trans (.purgeBegin _)

theorem GateFrame.abandonLeak (p : Part) (st : Stn) : GateFrame p (p.abandonLeak st) := by
  unfold Part.abandonLeak
  dsimp only
  split
  · exact .refl _
  · exact .refl _
  · exact ((GateFrame.modManifold _ _).trans (.undefer _ _)).trans (.modLeak _ _ _)
  · exact (((GateFrame.modLeak _ _ _).trans (.modManifold _ _)).trans (.purgeBegin _)).trans (.airNotice _ _)
  · exact .openVent _ _ _
  · exact .openVent _ _ _
  · exact (GateFrame.undefer _ _).trans (.openVent _ _ _)

/-! ## What the end of an attempt and a notice do -/

@[simp] theorem Part.attemptEnds_leak (p : Part) (st : Stn) (cause : Cause) : (p.attemptEnds st cause).leak = p.leak := by
  unfold Part.attemptEnds; dsimp only; split <;> rfl

@[simp] theorem Part.attemptEnds_manifold (p : Part) (st : Stn) (cause : Cause) :
    (p.attemptEnds st cause).manifold = { p.manifold with quiet := p.manifold.quiet.filter (fun x => x ≠ st) } := by
  unfold Part.attemptEnds; dsimp only; split <;> rfl

/-- Only the station's own collector ends its attempt. -/
theorem Part.attemptEnds_collector (p : Part) (st : Stn) (cause : Cause) :
    (p.attemptEnds st cause).collector = p.collector.set st (p.collector.get st).retry := by
  unfold Part.attemptEnds; dsimp only; split <;> rfl

theorem Part.attemptEnds_station (p : Part) (st : Stn) (cause : Cause) :
    (p.attemptEnds st cause).station =
      p.station.set st { p.station.get st with counters := (p.station.get st).counters.invalid cause } := by
  unfold Part.attemptEnds; dsimp only; split <;> rfl

/-- A collector after an invalid attempt is ARMED or OFF. -/
theorem Collector.retry_state (c : Collector) : c.retry.state = .armed ∨ c.retry.state = .off := by
  unfold Collector.retry; split
  · exact .inl rfl
  · exact .inr rfl

theorem Collector.retry_not_collecting (c : Collector) : c.retry.state ≠ .collecting := by
  rcases c.retry_state with h | h <;> rw [h] <;> decide

/-- What a notice does to one station: the attempt of a COLLECTING collector that it concerns ends with DISTURBED. -/
def noticed (forced : Bool) (c : Collector) : Bool := decide (c.state = .collecting ∧ (forced ∨ !c.wantsQuiet))

theorem Part.noticeAt_eq (forced : Bool) (p : Part) (st : Stn) :
    Part.noticeAt forced p st = if noticed forced (p.collector.get st) then p.attemptEnds st .disturbed else p := by
  unfold Part.noticeAt noticed; simp

@[simp] theorem Part.noticeAt_leak (forced : Bool) (p : Part) (st : Stn) : (Part.noticeAt forced p st).leak = p.leak := by
  rw [Part.noticeAt_eq]; split <;> simp

theorem Part.noticeAt_collector (forced : Bool) (p : Part) (st i : Stn) :
    (Part.noticeAt forced p st).collector.get i =
      if i = st ∧ noticed forced (p.collector.get st) = true then (p.collector.get i).retry else p.collector.get i := by
  rw [Part.noticeAt_eq]
  split
  · next h => rw [Part.attemptEnds_collector, Four.get_set]; split <;> simp_all
  · next h => simp [h]

theorem Part.noticeAt_station (forced : Bool) (p : Part) (st i : Stn) :
    (Part.noticeAt forced p st).station.get i =
      if i = st ∧ noticed forced (p.collector.get st) = true then
        { p.station.get i with counters := (p.station.get i).counters.invalid .disturbed } else p.station.get i := by
  rw [Part.noticeAt_eq]
  split
  · next h => rw [Part.attemptEnds_station, Four.get_set]; split <;> simp_all
  · next h => simp [h]

/-- The manifold but for its quiet holders. -/
def Manifold.rest (m : Manifold) : Manifold := { m with quiet := [] }

theorem Part.noticeAt_rest (forced : Bool) (p : Part) (st : Stn) :
    (Part.noticeAt forced p st).manifold.rest = p.manifold.rest := by
  rw [Part.noticeAt_eq]; split <;> simp [Manifold.rest]

theorem Part.noticeAt_quiet (forced : Bool) (p : Part) (st i : Stn) (h : i ∈ (Part.noticeAt forced p st).manifold.quiet) :
    i ∈ p.manifold.quiet := by
  rw [Part.noticeAt_eq] at h
  split at h
  · simp at h; exact h.1
  · exact h

@[simp] theorem Part.airNotice_leak (p : Part) (forced : Bool) : (p.airNotice forced).leak = p.leak := by
  simp [Part.airNotice, allStations]

theorem Part.airNotice_rest (p : Part) (forced : Bool) : (p.airNotice forced).manifold.rest = p.manifold.rest := by
  simp [Part.airNotice, allStations, Part.noticeAt_rest]

theorem Part.airNotice_quiet (p : Part) (forced : Bool) (i : Stn) (h : i ∈ (p.airNotice forced).manifold.quiet) :
    i ∈ p.manifold.quiet := by
  simp only [Part.airNotice, allStations, List.foldl] at h
  exact p.noticeAt_quiet _ _ _ (Part.noticeAt_quiet _ _ _ _ (Part.noticeAt_quiet _ _ _ _ (Part.noticeAt_quiet _ _ _ _ h)))

/-- A notice and the collectors: each one that it concerns ends its attempt, the others stay as they are. -/
theorem Part.airNotice_collector (p : Part) (forced : Bool) (i : Stn) :
    (p.airNotice forced).collector.get i =
      if noticed forced (p.collector.get i) = true then (p.collector.get i).retry else p.collector.get i := by
  simp only [Part.airNotice, allStations, List.foldl, Part.noticeAt_collector]
  match i with
  | 0 => simp
  | 1 => simp
  | 2 => simp
  | 3 => simp

/-- A notice and the stations: each station whose attempt it ends counts one more DISTURBED. -/
theorem Part.airNotice_station (p : Part) (forced : Bool) (i : Stn) :
    (p.airNotice forced).station.get i = if noticed forced (p.collector.get i) = true then
      { p.station.get i with counters := (p.station.get i).counters.invalid .disturbed } else p.station.get i := by
  simp only [Part.airNotice, allStations, List.foldl, Part.noticeAt_collector, Part.noticeAt_station]
  match i with
  | 0 => simp
  | 1 => simp
  | 2 => simp
  | 3 => simp

end Sys2Proof.Machine
end

