-- ==== Sys2Proof/Laws/Air.lean ====
section
/-!
SUPPORT. The grant, the release of the deferred list and the purge: what each can do to collectors and sequencers, and
that each keeps the law of the manifold (`Part.AirLaw`).
-/
namespace Sys2Proof.Machine

open Sys2Proof

/-! ## Collectors under the gate -/

/-- A station's record with its deferral count left out of account. -/
def Station.undeferred (x : Station) : Station := { x with counters := { x.counters with deferrals := 0 } }

/-- Every collector stays, or was COLLECTING and ended its attempt; no quiet holder is added; the station of a collector that
was not COLLECTING stays but for its deferrals, and its RETRIES_EXHAUSTED source stays. -/
structure GateNotice (p q : Part) : Prop where
  collector : ∀ i, q.collector.get i = p.collector.get i ∨
    ((p.collector.get i).state = .collecting ∧ q.collector.get i = (p.collector.get i).retry)
  quiet : ∀ i, i ∈ q.manifold.quiet → i ∈ p.manifold.quiet
  spared : ∀ i, (p.collector.get i).state ≠ .collecting →
    (q.station.get i).undeferred = (p.station.get i).undeferred ∧
    q.alertAt (Source.retriesExhausted i).number = p.alertAt (Source.retriesExhausted i).number

theorem GateNotice.refl (p : Part) : GateNotice p p := ⟨fun _ => .inl rfl, fun _ h => h, fun _ _ => ⟨rfl, rfl⟩⟩

theorem GateNotice.trans {p q r : Part} (h : GateNotice p q) (k : GateNotice q r) : GateNotice p r := by
  refine ⟨fun i => ?_, fun i x => h.quiet i (k.quiet i x), fun i x => ?_⟩
  · rcases h.collector i with a | ⟨a, b⟩
    · rcases k.collector i with c | ⟨c, d⟩
      · exact .inl (c.trans a)
      · rw [a] at c d; exact .inr ⟨c, d⟩
    · rcases k.collector i with c | ⟨c, d⟩
      · exact .inr ⟨a, c.trans b⟩
      · rw [b] at c; exact absurd c (Collector.retry_not_collecting _)
  · have y : (q.collector.get i).state ≠ .collecting := by
      rcases h.collector i with a | ⟨a, b⟩
      · rw [a]; exact x
      · exact absurd a x
    exact ⟨(k.spared i y).1.trans (h.spared i x).1, (k.spared i y).2.trans (h.spared i x).2⟩

theorem GateNotice.modLeak (p : Part) (st : Stn) (f : Sequencer → Sequencer) : GateNotice p (p.modLeak st f) :=
  ⟨fun _ => .inl rfl, fun _ h => h, fun _ _ => ⟨rfl, rfl⟩⟩

theorem GateNotice.countDeferral (p : Part) (st : Stn) : GateNotice p (p.countDeferral st) := by
  refine ⟨fun _ => .inl rfl, fun _ h => h, fun i _ => ⟨?_, rfl⟩⟩
  simp only [Part.countDeferral, Part.modStation_station, Four.get_set]
  split
  · next h => subst h; rfl
  · rfl

/-- A change of the manifold that leaves the quiet holders. -/
theorem GateNotice.modManifold (p : Part) (f : Manifold → Manifold) (h : ∀ m, (f m).quiet = m.quiet) :
    GateNotice p (p.modManifold f) := ⟨fun _ => .inl rfl, fun _ x => by simpa [h] using x, fun _ _ => ⟨rfl, rfl⟩⟩

theorem GateNotice.releaseGrant (p : Part) : GateNotice p p.releaseGrant := .modManifold _ _ (by intro; rfl)

theorem GateNotice.undefer (p : Part) (st : Stn) : GateNotice p (p.undefer st) := .modManifold _ _ (by intro; rfl)

theorem GateNotice.noticeAt (forced : Bool) (p : Part) (st : Stn) : GateNotice p (Part.noticeAt forced p st) := by
  refine ⟨fun i => ?_, fun i => p.noticeAt_quiet forced st i, fun i x => ?_⟩
  · rw [Part.noticeAt_collector]
    split
    · next h => obtain ⟨rfl, h⟩ := h; simp [noticed] at h; exact .inr ⟨h.1, rfl⟩
    · exact .inl rfl
  · rw [Part.noticeAt_eq]
    split
    · next h =>
      have k : i ≠ st := by rintro rfl; simp [noticed] at h; exact x h.1
      rw [Part.attemptEnds_station, Four.get_set_other _ _ k]
      refine ⟨rfl, ?_⟩
      unfold Part.attemptEnds
      dsimp only
      split
      · simp only [Part.alertAt, Part.raise_alerts, List.getD_eq_getElem?_getD]
        rw [List.getElem?_set_ne]
        · rfl
        · simp only [Source.number]; intro e; exact k (Fin.ext (by omega))
      · rfl
    · exact ⟨rfl, rfl⟩

theorem GateNotice.foldl {α : Type} (f : Part → α → Part) (h : ∀ p x, GateNotice p (f p x)) (l : List α) (p : Part) :
    GateNotice p (l.foldl f p) := by
  induction l generalizing p with
  | nil => exact .refl p
  | cons x xs ih => exact (h p x).trans (ih _)

theorem GateNotice.airNotice (p : Part) (forced : Bool) : GateNotice p (p.airNotice forced) :=
  .foldl _ (GateNotice.noticeAt forced) _ _

theorem GateNotice.openVent (p : Part) (st : Stn) (kind : VentKind) : GateNotice p (p.openVent st kind) := by
  unfold Part.openVent
  exact (GateNotice.modLeak _ _ _).trans (.airNotice _ _)

theorem GateNotice.grantHead (p : Part) (st : Stn) (rest : List Stn) : GateNotice p (p.grantHead st rest) := by
  unfold Part.grantHead
  refine .trans (.trans (.trans ?_ (.undefer _ _)) (.modLeak _ _ _)) (.airNotice _ _)
  exact .modManifold _ _ (by intro; rfl)

theorem GateNotice.defer (p : Part) (st : Stn) (what : Held) : GateNotice p (p.defer st what) := by
  unfold Part.defer
  exact (GateNotice.modManifold _ _ (by intro; rfl)).trans (.countDeferral _ _)

theorem GateNotice.grantTest (p : Part) : GateNotice p p.grantTest := by
  unfold Part.grantTest
  repeat' split
  all_goals first | exact .refl _ | exact .grantHead _ _ _ | exact .defer _ _ _

theorem GateNotice.releaseEntry (p : Part) (x : Stn × Held) : GateNotice p (p.releaseEntry x) := by
  unfold Part.releaseEntry
  split
  · exact .openVent _ _ _
  · exact .refl _

theorem GateNotice.releaseDeferred (p : Part) : GateNotice p p.releaseDeferred := by
  unfold Part.releaseDeferred
  split
  · exact (GateNotice.foldl _ GateNotice.releaseEntry _ _).trans (.modManifold _ _ (by intro; rfl))
  · exact .refl _

theorem GateNotice.gateSettle (p : Part) : GateNotice p p.gateSettle := (GateNotice.releaseDeferred p).trans (.grantTest _)

theorem GateNotice.purgeBegin (p : Part) : GateNotice p p.purgeBegin := by
  unfold Part.purgeBegin
  split
  · exact .grantTest _
  · exact (GateNotice.modManifold _ _ (by intro; rfl)).trans (.airNotice _ _)

theorem GateNotice.noteClosed (p : Part) : GateNotice p p.noteClosed := by
  unfold Part.noteClosed
  split
  · exact .refl _
  · exact .modManifold _ _ (by intro; rfl)

theorem GateNotice.endFill (p : Part) : GateNotice p p.endFill := by
  unfold Part.endFill
  exact (GateNotice.releaseGrant _).trans ((GateNotice.noteClosed _).trans (.purgeBegin _))

theorem GateNotice.goToVent (p : Part) (st : Stn) : GateNotice p (p.goToVent st) := by
  unfold Part.goToVent
  split
  · exact .openVent _ _ _
  · exact (GateNotice.modLeak _ _ _).trans (.defer _ _ _)

theorem GateNotice.abandonLeak (p : Part) (st : Stn) : GateNotice p (p.abandonLeak st) := by
  unfold Part.abandonLeak
  dsimp only
  split
  · exact .refl _
  · exact .refl _
  · exact ((GateNotice.modManifold _ _ (by intro; rfl)).trans (.undefer _ _)).trans (.modLeak _ _ _)
  · exact ((GateNotice.modLeak _ _ _).trans (.releaseGrant _)).trans ((GateNotice.purgeBegin _).trans (.airNotice _ _))
  · exact .openVent _ _ _
  · exact .openVent _ _ _
  · exact (GateNotice.undefer _ _).trans (.openVent _ _ _)

/-- A collector that is not COLLECTING is left alone by the gate. -/
theorem GateNotice.keeps {p q : Part} (h : GateNotice p q) {i : Stn} (k : (p.collector.get i).state ≠ .collecting) :
    q.collector.get i = p.collector.get i := by
  rcases h.collector i with a | ⟨a, -⟩
  · exact a
  · exact absurd a k

/-! ## The law of the manifold -/

/-- The law reads only the phases and the manifold but for its quiet holders. -/
theorem Part.AirLaw.congr {p q : Part} (h : p.AirLaw) (hl : ∀ i, (q.leak.get i).phase = (p.leak.get i).phase)
    (hm : q.manifold.rest = p.manifold.rest) : q.AirLaw := by
  have h1 : q.manifold.holder = p.manifold.holder := (congrArg Manifold.holder hm :)
  have h2 : q.manifold.purging = p.manifold.purging := (congrArg Manifold.purging hm :)
  have h3 : q.manifold.queue = p.manifold.queue := (congrArg Manifold.queue hm :)
  have h4 : q.manifold.deferred = p.manifold.deferred := (congrArg Manifold.deferred hm :)
  unfold Part.AirLaw
  rw [h1, h2, h3, h4]
  simp only [hl]
  exact h

theorem Part.AirLaw.airNotice {p : Part} (h : p.AirLaw) (forced : Bool) : (p.airNotice forced).AirLaw :=
  h.congr (fun i => by rw [Part.airNotice_leak]) (Part.airNotice_rest _ _)

theorem Part.AirLaw.attemptEnds {p : Part} (h : p.AirLaw) (st : Stn) (cause : Cause) : (p.attemptEnds st cause).AirLaw :=
  h.congr (fun i => by rw [Part.attemptEnds_leak]) (by simp [Manifold.rest])

/-- A vent opens in a station that is not in FILL, not queued and not on the deferred list. -/
theorem Part.AirLaw.openVent {p : Part} (h : p.AirLaw) (st : Stn) (kind : VentKind)
    (h1 : (p.leak.get st).phase ≠ .fill) (h2 : (p.leak.get st).phase ≠ .queued)
    (h3 : (st, Held.vent) ∉ p.manifold.deferred) : (p.openVent st kind).AirLaw := by
  obtain ⟨a, b, c, d, e⟩ := h
  unfold Part.openVent
  apply Part.AirLaw.airNotice
  refine ⟨fun i => ?_, b, c, fun i hi => ?_, fun i hi => ?_⟩
  all_goals simp only [Part.modLeak_leak, Part.modLeak_manifold, Four.get_set]
  · split
    · next k => subst k; constructor
                · intro x; exact absurd ((a i).1 x) h1
                · intro x; cases x
    · exact a i
  · split
    · next k => subst k; exact absurd (d i hi) h2
    · exact d i hi
  · split
    · next k => subst k; exact absurd hi h3
    · exact e i hi

/-- The grant of the head of the queue, with no grant held and no purge. -/
theorem Part.AirLaw.grantHead {p : Part} (h : p.AirLaw) {st : Stn} {rest : List Stn} (hq : p.manifold.queue = st :: rest)
    (hh : p.manifold.holder = none) (hp : p.manifold.purging = false) : (p.grantHead st rest).AirLaw := by
  obtain ⟨a, b, c, d, e⟩ := h
  rw [hq] at c d
  have hn : st ∉ rest := (List.nodup_cons.1 c).1
  unfold Part.grantHead
  apply Part.AirLaw.airNotice
  refine ⟨fun i => ?_, fun x => ?_, ?_, fun i hi => ?_, fun i hi => ?_⟩
  all_goals simp only [Part.undefer, Part.modLeak_leak, Part.modLeak_manifold, Part.modManifold_manifold,
    Part.modManifold_leak, Four.get_set] at *
  · split
    · next k => subst k; simp
    · next k =>
      constructor
      · intro x; exact absurd (Option.some.inj x).symm k
      · intro x; have := (a i).2 x; rw [hh] at this; cases this
  · rw [hp] at x; cases x
  · exact (List.nodup_cons.1 c).2
  · split
    · next k => subst k; exact absurd hi hn
    · exact d i (List.mem_cons_of_mem _ hi)
  · simp at hi
    split
    · next k => subst k; exact absurd rfl hi.2
    · exact e i hi.1

theorem Part.AirLaw.deferGrant {p : Part} (h : p.AirLaw) (st : Stn) : (p.defer st .grant).AirLaw := by
  obtain ⟨a, b, c, d, e⟩ := h
  refine ⟨a, b, c, d, fun i hi => ?_⟩
  simp [Part.defer, Part.countDeferral] at hi
  exact e i hi

theorem Part.AirLaw.grantTest {p : Part} (h : p.AirLaw) : p.grantTest.AirLaw := by
  unfold Part.grantTest
  split
  · exact h
  · next st rest hq =>
    split
    · exact h
    · next k =>
      simp at k
      split
      · exact h.grantHead hq k.1 k.2
      · split
        · exact h
        · exact h.deferGrant st

/-- The releases of a list of entries: the sequencers entered with VENT are in VENT, the others stay. -/
theorem Part.release_leak (l : List (Stn × Held)) (p : Part) (i : Stn) :
    (l.foldl Part.releaseEntry p).leak.get i =
      if (i, Held.vent) ∈ l then { p.leak.get i with phase := .vent, ventCount := 0, ventKind := .normal }
      else p.leak.get i := by
  induction l generalizing p with
  | nil => simp
  | cons x xs ih =>
    obtain ⟨st, w⟩ := x
    rw [List.foldl_cons, ih]
    cases w
    · simp [Part.releaseEntry]
    · simp only [Part.releaseEntry, Part.openVent, Part.airNotice_leak, Part.modLeak_leak, Four.get_set, List.mem_cons,
        Prod.mk.injEq, and_true]
      by_cases k : i = st
      · subst k; simp
      · simp [k]

theorem Part.release_rest (l : List (Stn × Held)) (p : Part) :
    (l.foldl Part.releaseEntry p).manifold.rest = p.manifold.rest := by
  induction l generalizing p with
  | nil => rfl
  | cons x xs ih =>
    rw [List.foldl_cons, ih]
    obtain ⟨st, w⟩ := x
    cases w
    · rfl
    · exact Part.airNotice_rest _ _

/-- The release of the deferred list, without a quiet holder. -/
theorem Part.releaseDeferred_leak (p : Part) (h : p.manifold.quiet = []) (i : Stn) :
    p.releaseDeferred.leak.get i =
      if (i, Held.vent) ∈ p.manifold.deferred then
        { p.leak.get i with phase := .vent, ventCount := 0, ventKind := .normal } else p.leak.get i := by
  unfold Part.releaseDeferred
  rw [h]
  exact Part.release_leak _ _ _

theorem Part.releaseDeferred_rest (p : Part) (h : p.manifold.quiet = []) :
    p.releaseDeferred.manifold.rest = { p.manifold.rest with deferred := [] } := by
  unfold Part.releaseDeferred
  rw [h]
  have := Part.release_rest p.manifold.deferred p
  simp only [Manifold.rest] at this ⊢
  simp at this ⊢
  exact ⟨this.1, this.2.1, this.2.2.1, this.2.2.2.1, this.2.2.2.2.2⟩

theorem Part.releaseDeferred_holder (p : Part) (h : p.manifold.quiet = []) :
    p.releaseDeferred.manifold.holder = p.manifold.holder := by
  have e := congrArg Manifold.holder (p.releaseDeferred_rest h); exact e

theorem Part.releaseDeferred_purging (p : Part) (h : p.manifold.quiet = []) :
    p.releaseDeferred.manifold.purging = p.manifold.purging := by
  have e := congrArg Manifold.purging (p.releaseDeferred_rest h); exact e

theorem Part.releaseDeferred_queue (p : Part) (h : p.manifold.quiet = []) :
    p.releaseDeferred.manifold.queue = p.manifold.queue := by
  have e := congrArg Manifold.queue (p.releaseDeferred_rest h); exact e

theorem Part.releaseDeferred_deferred (p : Part) (h : p.manifold.quiet = []) : p.releaseDeferred.manifold.deferred = [] := by
  have e := congrArg Manifold.deferred (p.releaseDeferred_rest h); exact e

/-- No quiet holder comes back. -/
theorem GateNotice.quiet_nil {p q : Part} (h : GateNotice p q) (k : p.manifold.quiet = []) : q.manifold.quiet = [] := by
  cases hx : q.manifold.quiet with
  | nil => rfl
  | cons a l => have := h.quiet a (by rw [hx]; simp); rw [k] at this; cases this

theorem Part.releaseDeferred_held (p : Part) (h : p.manifold.quiet ≠ []) : p.releaseDeferred = p := by
  unfold Part.releaseDeferred
  rw [if_neg (by simpa using h)]

theorem Part.AirLaw.releaseDeferred {p : Part} (h : p.AirLaw) : p.releaseDeferred.AirLaw := by
  by_cases hq : p.manifold.quiet = []
  · have hl := p.releaseDeferred_leak hq
    have hr := p.releaseDeferred_rest hq
    have h1 : p.releaseDeferred.manifold.holder = p.manifold.holder := (congrArg Manifold.holder hr :)
    have h2 : p.releaseDeferred.manifold.purging = p.manifold.purging := (congrArg Manifold.purging hr :)
    have h3 : p.releaseDeferred.manifold.queue = p.manifold.queue := (congrArg Manifold.queue hr :)
    have h4 : p.releaseDeferred.manifold.deferred = [] := (congrArg Manifold.deferred hr :)
    obtain ⟨a, b, c, d, e⟩ := h
    refine ⟨fun i => ?_, by rw [h1, h2]; exact b, by rw [h3]; exact c, fun i hi => ?_, by rw [h4]; simp⟩
    · rw [h1, hl]
      split
      · next k =>
        constructor
        · intro x; have := (a i).1 x; rw [e i k] at this; cases this
        · intro x; cases x
      · exact a i
    · rw [h3] at hi
      rw [hl]
      split
      · next k => have := e i k; rw [d i hi] at this; cases this
      · exact d i hi
  · rw [p.releaseDeferred_held hq]; exact h

/-- The release and the grant test keep the law. -/
theorem Part.AirLaw.gateSettle {p : Part} (h : p.AirLaw) : p.gateSettle.AirLaw := h.releaseDeferred.grantTest

theorem Part.AirLaw.purgeBegin {p : Part} (h : p.AirLaw) (hh : p.manifold.holder = none) : p.purgeBegin.AirLaw := by
  unfold Part.purgeBegin
  split
  · exact h.grantTest
  · apply Part.AirLaw.airNotice
    exact ⟨h.1, fun _ => hh, h.2.2.1, h.2.2.2.1, h.2.2.2.2⟩

theorem Part.AirLaw.noteClosed {p : Part} (h : p.AirLaw) : p.noteClosed.AirLaw := by
  unfold Part.noteClosed
  split
  · exact h
  · exact ⟨h.1, h.2.1, h.2.2.1, h.2.2.2.1, h.2.2.2.2⟩

/-- A station leaves FILL for a phase that neither the queue nor the deferred list names, and the grant is released. -/
theorem Part.AirLaw.leaveFill {p : Part} (h : p.AirLaw) {st : Stn} (hf : (p.leak.get st).phase = .fill)
    (f : Sequencer → Sequencer) (hn : (f (p.leak.get st)).phase ≠ .fill) :
    ((p.modLeak st f).releaseGrant).AirLaw ∧ ((p.modLeak st f).releaseGrant).manifold.holder = none := by
  obtain ⟨a, b, c, d, e⟩ := h
  refine ⟨⟨fun i => ?_, fun _ => rfl, c, fun i hi => ?_, fun i hi => ?_⟩, rfl⟩
  all_goals simp only [Part.releaseGrant, Part.modLeak_leak, Part.modManifold_leak, Part.modManifold_manifold, Four.get_set]
  · split
    · next k => subst k; simp [hn]
    · next k =>
      constructor
      · intro x; cases x
      · intro x
        have h1 := (a i).2 x
        have h2 := (a st).2 hf
        rw [h1] at h2; exact absurd (Option.some.inj h2) k
  · split
    · next k => subst k; have := d i hi; rw [hf] at this; cases this
    · exact d i hi
  · split
    · next k => subst k; have := e i hi; rw [hf] at this; cases this
    · exact e i hi

end Sys2Proof.Machine
end

