-- ==== Sys2Proof/Laws/Halt.lean ====
section
/-!
SUPPORT. What a stop and a halt of a station do: the work that is given up, the report that is written, and what the
other stations see of it.
-/
namespace Sys2Proof.Machine

open Sys2Proof

/-! ## The gate and the sequencers -/

/-- The grant test answers in one of three ways (R127, R143). -/
theorem Part.grantTest_cases (p : Part) :
    p.grantTest = p ∨
    (∃ st rest, p.manifold.queue = st :: rest ∧ p.manifold.quiet ≠ [] ∧ p.grantTest = p.defer st .grant) ∨
    (∃ st rest, p.manifold.queue = st :: rest ∧ p.manifold.holder = none ∧ p.manifold.purging = false ∧
      p.manifold.quiet = [] ∧ p.grantTest = p.grantHead st rest) := by
  unfold Part.grantTest
  split
  · exact .inl rfl
  · next st rest hq =>
    split
    · exact .inl rfl
    · next k =>
      simp at k
      split
      · next hn => exact .inr (.inr ⟨st, rest, hq, k.1, k.2, by simpa using hn, rfl⟩)
      · next hn =>
        split
        · exact .inl rfl
        · exact .inr (.inl ⟨st, rest, hq, by simpa using hn, rfl⟩)

/-- A grant is given when nothing stands in its way (R127). -/
theorem Part.grantTest_grants {p : Part} {st : Stn} {rest : List Stn} (hq : p.manifold.queue = st :: rest)
    (hh : p.manifold.holder = none) (hp : p.manifold.purging = false) (hn : p.manifold.quiet = []) :
    p.grantTest = p.grantHead st rest := by
  unfold Part.grantTest; simp [hq, hh, hp, hn]

theorem Part.grantHead_leak (p : Part) (st : Stn) (rest : List Stn) :
    (p.grantHead st rest).leak =
      p.leak.set st { p.leak.get st with phase := .fill, fillTimer := 0, fillCloses := 0 } := by
  unfold Part.grantHead; rw [Part.airNotice_leak]; rfl

theorem Part.grantHead_rest (p : Part) (st : Stn) (rest : List Stn) :
    (p.grantHead st rest).manifold.rest =
      { p.manifold.rest with queue := rest, holder := some st
                             deferred := p.manifold.deferred.filter (fun x => x.1 ≠ st) } := by
  unfold Part.grantHead; rw [Part.airNotice_rest]; rfl

theorem Part.grantHead_manifold (p : Part) (st : Stn) (rest : List Stn) :
    (p.grantHead st rest).manifold.holder = some st ∧ (p.grantHead st rest).manifold.queue = rest ∧
    (p.grantHead st rest).manifold.purging = p.manifold.purging ∧
    (p.grantHead st rest).manifold.deferred = p.manifold.deferred.filter (fun x => x.1 ≠ st) := by
  have h := p.grantHead_rest st rest
  have h1 := congrArg Manifold.holder h
  have h2 := congrArg Manifold.queue h
  have h3 := congrArg Manifold.purging h
  have h4 := congrArg Manifold.deferred h
  simp only [Manifold.rest] at h1 h2 h3 h4
  exact ⟨h1, h2, h3, h4⟩

/-- The grant test and the manifold: the queue only loses its head, and the deferred list only gains a head with GRANT. -/
theorem Part.grantTest_manifold (p : Part) :
    p.grantTest.manifold.purging = p.manifold.purging ∧ (∀ i, i ∈ p.grantTest.manifold.queue → i ∈ p.manifold.queue) ∧
    ∀ x, x ∈ p.grantTest.manifold.deferred → x ∈ p.manifold.deferred ∨ (x.1 ∈ p.manifold.queue ∧ x.2 = .grant) := by
  rcases p.grantTest_cases with e | ⟨st, rest, hq, -, e⟩ | ⟨st, rest, hq, -, -, -, e⟩
  · rw [e]; exact ⟨rfl, fun _ h => h, fun _ h => .inl h⟩
  · rw [e]; refine ⟨rfl, fun _ h => h, fun x h => ?_⟩
    simp only [Part.defer, Part.countDeferral, Part.modStation_manifold, Part.modManifold_manifold, List.mem_append] at h
    rcases h with h | h
    · exact .inl h
    · simp at h; subst h; exact .inr ⟨by rw [hq]; simp, rfl⟩
  · obtain ⟨h1, h2, h3, h4⟩ := p.grantHead_manifold st rest
    rw [e, h2, h3, h4]
    refine ⟨rfl, fun i h => by rw [hq]; exact List.mem_cons_of_mem _ h, fun x h => .inl (List.mem_filter.1 h).1⟩

/-- The gate and the manifold, by the same measure. -/
theorem Part.gateSettle_manifold (p : Part) :
    p.gateSettle.manifold.purging = p.manifold.purging ∧ (∀ i, i ∈ p.gateSettle.manifold.queue → i ∈ p.manifold.queue) ∧
    ∀ x, x ∈ p.gateSettle.manifold.deferred → x ∈ p.manifold.deferred ∨ (x.1 ∈ p.manifold.queue ∧ x.2 = .grant) := by
  unfold Part.gateSettle
  by_cases h : p.manifold.quiet = []
  · obtain ⟨a, b, c⟩ := p.releaseDeferred.grantTest_manifold
    rw [p.releaseDeferred_queue h] at b c
    rw [p.releaseDeferred_purging h] at a
    rw [p.releaseDeferred_deferred h] at c
    exact ⟨a, b, fun x hx => by rcases c x hx with k | k
                                · cases k
                                · exact .inr k⟩
  · rw [p.releaseDeferred_held h]; exact p.grantTest_manifold

/-- The grant test changes no sequencer but one that is queued. -/
theorem Part.grantTest_leak {p : Part} {i : Stn} (h : i ∉ p.manifold.queue) :
    p.grantTest.leak.get i = p.leak.get i := by
  rcases p.grantTest_cases with e | ⟨st, rest, -, -, e⟩ | ⟨st, rest, hq, -, -, -, e⟩
  · rw [e]
  · rw [e]; rfl
  · rw [e, Part.grantHead_leak, Four.get_set_other]
    rintro rfl; exact h (by rw [hq]; exact List.mem_cons_self)

/-- The gate changes no sequencer but one that is queued or waits to vent. -/
theorem Part.gateSettle_leak {p : Part} {i : Stn} (h : i ∉ p.manifold.queue) (k : (i, Held.vent) ∉ p.manifold.deferred) :
    p.gateSettle.leak.get i = p.leak.get i := by
  unfold Part.gateSettle
  by_cases hq : p.manifold.quiet = []
  · rw [Part.grantTest_leak, Part.releaseDeferred_leak _ hq, if_neg k]
    have : p.releaseDeferred.manifold.queue = p.manifold.queue := (congrArg Manifold.queue (p.releaseDeferred_rest hq) :)
    rw [this]; exact h
  · rw [p.releaseDeferred_held hq, Part.grantTest_leak h]

/-- Under the law of the manifold the gate changes only sequencers in QUEUED and VENT_WAIT. -/
theorem Part.AirLaw.gateSettle_leak {p : Part} (h : p.AirLaw) {i : Stn} (a : (p.leak.get i).phase ≠ .queued)
    (b : (p.leak.get i).phase ≠ .ventWait) : p.gateSettle.leak.get i = p.leak.get i :=
  Part.gateSettle_leak (fun x => a (h.2.2.2.1 i x)) (fun x => b (h.2.2.2.2 i x))

theorem Part.AirLaw.purgeBegin_leak {p : Part} (h : p.AirLaw) {i : Stn} (a : (p.leak.get i).phase ≠ .queued) :
    p.purgeBegin.leak.get i = p.leak.get i := by
  unfold Part.purgeBegin
  split
  · exact Part.grantTest_leak (fun x => a (h.2.2.2.1 i x))
  · rw [Part.airNotice_leak]; rfl

/-! ## The work that a station gives up -/

/-- Giving up a job touches the collector, the quiet holders and the engine alone. -/
theorem Part.giveUpNoise_leak (p : Part) (st : Stn) : (p.giveUpNoise st).leak = p.leak := by
  unfold Part.giveUpNoise; repeat' split
  all_goals rfl

theorem Part.giveUpNoise_rest (p : Part) (st : Stn) : (p.giveUpNoise st).manifold.rest = p.manifold.rest := by
  unfold Part.giveUpNoise; repeat' split
  all_goals rfl

theorem Part.giveUpNoise_station (p : Part) (st : Stn) : (p.giveUpNoise st).station = p.station := by
  unfold Part.giveUpNoise; repeat' split
  all_goals rfl

theorem Part.giveUpNoise_profile (p : Part) (st : Stn) : (p.giveUpNoise st).profile = p.profile := by
  unfold Part.giveUpNoise; repeat' split
  all_goals rfl

theorem Part.giveUpNoise_tracker (p : Part) (st : Stn) : (p.giveUpNoise st).tracker = p.tracker := by
  unfold Part.giveUpNoise; repeat' split
  all_goals rfl

theorem Part.giveUpNoise_tables (p : Part) (st : Stn) : (p.giveUpNoise st).tables = p.tables := by
  unfold Part.giveUpNoise; repeat' split
  all_goals rfl

theorem Part.giveUpNoise_reports (p : Part) (st : Stn) : (p.giveUpNoise st).reports = p.reports := by
  unfold Part.giveUpNoise; repeat' split
  all_goals rfl

theorem Part.giveUpNoise_alerts (p : Part) (st : Stn) : (p.giveUpNoise st).alerts = p.alerts := by
  unfold Part.giveUpNoise; repeat' split
  all_goals rfl

/-- The collector of a station that gave up its job is OFF, or EVALUATING with its evaluation to be discarded (R102). -/
theorem Part.giveUpNoise_stopped (p : Part) (st : Stn) : ((p.giveUpNoise st).collector.get st).state.stopped := by
  unfold Part.giveUpNoise CollectorState.stopped
  split
  · simp
  · simp [Part.leaveQuiet]
  · simp [Part.leaveQuiet]
  · simp [Part.leaveQuiet]
  · split <;> simp

theorem Part.giveUpNoise_exhausted (p : Part) (st : Stn) :
    ((p.giveUpNoise st).collector.get st).exhausted = (p.collector.get st).exhausted := by
  unfold Part.giveUpNoise
  repeat' split
  all_goals simp [Part.leaveQuiet]

theorem Part.AirLaw.giveUpNoise {p : Part} (h : p.AirLaw) (st : Stn) : (p.giveUpNoise st).AirLaw :=
  h.congr (fun i => by rw [p.giveUpNoise_leak]) (p.giveUpNoise_rest st)

/-- A station that leaves QUEUED leaves the queue and the deferred list. -/
theorem Part.AirLaw.leaveQueue {p : Part} (h : p.AirLaw) (st : Stn) (hp : (p.leak.get st).phase = .queued)
    (f : Sequencer → Sequencer) (hf : (f (p.leak.get st)).phase = .idle) :
    (((p.modManifold (fun m => { m with queue := m.queue.filter (fun x => x ≠ st) })).undefer st).modLeak st f).AirLaw := by
  obtain ⟨a, b, c, d, e⟩ := h
  refine ⟨fun i => ?_, b, c.filter _, fun i hi => ?_, fun i hi => ?_⟩
  all_goals simp only [Part.undefer, Part.modLeak_leak, Part.modManifold_leak, Part.modManifold_manifold,
    Part.modLeak_manifold, Four.get_set, List.mem_filter] at *
  · split
    · next k => subst k; constructor
                · intro x; have := (a i).1 x; rw [hp] at this; cases this
                · intro x; rw [hf] at x; cases x
    · exact a i
  · split
    · next k => subst k; simp at hi
    · exact d i hi.1
  · split
    · next k => subst k; simp at hi
    · exact e i hi.1

/-- A station that leaves VENT_WAIT for another phase that is neither FILL nor QUEUED. -/
theorem Part.AirLaw.undefer {p : Part} (h : p.AirLaw) (st : Stn) : (p.undefer st).AirLaw := by
  obtain ⟨a, b, c, d, e⟩ := h
  refine ⟨a, b, c, d, fun i hi => e i ?_⟩
  simp [Part.undefer] at hi; exact hi.1

/-- The sequencer's abandonment leads to the phase of R14 and R17 and keeps the law. -/
theorem Part.AirLaw.abandonLeak {p : Part} (h : p.AirLaw) (st : Stn) :
    (p.abandonLeak st).AirLaw ∧ ((p.abandonLeak st).leak.get st).phase = (p.leak.get st).phase.afterStop := by
  unfold Part.abandonLeak
  dsimp only
  split
  · next k => exact ⟨h, by rw [k]; rfl⟩
  · next k => exact ⟨h, by rw [k]; rfl⟩
  · next k => exact ⟨h.leaveQueue st k _ rfl, by simp [k, Phase.afterStop]⟩
  · next k =>
    have l := h.leaveFill k (fun x => { x with phase := .vent, ventCount := 0, ventKind := .forced }) (by simp)
    refine ⟨(l.1.purgeBegin l.2).airNotice _, ?_⟩
    rw [Part.airNotice_leak, l.1.purgeBegin_leak (by simp [Part.releaseGrant]), k]
    simp [Part.releaseGrant, Phase.afterStop]
  · next k =>
    refine ⟨h.openVent st _ (by simp [k]) (by simp [k]) (fun x => by have := h.2.2.2.2 st x; simp [k] at this), ?_⟩
    rw [Part.openVent, Part.airNotice_leak, k]; simp [Phase.afterStop]
  · next k =>
    refine ⟨h.openVent st _ (by simp [k]) (by simp [k]) (fun x => by have := h.2.2.2.2 st x; simp [k] at this), ?_⟩
    rw [Part.openVent, Part.airNotice_leak, k]; simp [Phase.afterStop]
  · next k =>
    refine ⟨(h.undefer st).openVent st _ (by simp [Part.undefer, k]) (by simp [Part.undefer, k]) (by simp [Part.undefer]), ?_⟩
    rw [Part.openVent, Part.airNotice_leak, k]; simp [Phase.afterStop]

theorem Phase.afterStop_at_rest (x : Phase) : x.afterStop = .idle ∨ x.afterStop = .vent := by cases x <;> simp [Phase.afterStop]

/-- What a stop leaves: the frame but for the engine, a stopped collector, and under the law the phase of R14 and R17. -/
structure StopFrame (p q : Part) (st : Stn) : Prop where
  outer : q.outer = p.outer
  tracker : q.tracker = p.tracker
  profile : q.profile = p.profile
  tables : q.tables = p.tables
  reports : q.reports = p.reports
  station : sameStations q.station p.station
  sources : q.alerts.length = p.alerts.length
  alerts : ∀ n, n < 12 ∨ 16 ≤ n → q.alertAt n = p.alertAt n
  collector : (q.collector.get st).state.stopped
  exhausted : (q.collector.get st).exhausted = (p.collector.get st).exhausted
  air : p.AirLaw → q.AirLaw ∧ (q.leak.get st).phase = (p.leak.get st).phase.afterStop

/-- The stop of a station's collector and sequencer at one event. -/
theorem Part.stopBlocks_frame (p : Part) (st : Stn) : StopFrame p (p.stopBlocks st) st := by
  unfold Part.stopBlocks
  have g : GateFrame (p.giveUpNoise st) (((p.giveUpNoise st).abandonLeak st).gateSettle) :=
    (GateFrame.abandonLeak _ _).trans (.gateSettle _)
  have n : GateNotice (p.giveUpNoise st) (((p.giveUpNoise st).abandonLeak st).gateSettle) :=
    (GateNotice.abandonLeak _ _).trans (.gateSettle _)
  have s := p.giveUpNoise_stopped st
  have k : (((p.giveUpNoise st).abandonLeak st).gateSettle).collector.get st = (p.giveUpNoise st).collector.get st :=
    n.keeps (by rcases s with s | s <;> rw [s] <;> decide)
  refine ⟨g.outer.trans (by simp), ?_, ?_, ?_, ?_, ?_, ?_, ?_, ?_, ?_, fun h => ?_⟩
  · rw [g.tracker, p.giveUpNoise_tracker]
  · rw [g.profile, p.giveUpNoise_profile]
  · rw [g.tables, p.giveUpNoise_tables]
  · rw [g.reports, p.giveUpNoise_reports]
  · have := g.station; rwa [p.giveUpNoise_station] at this
  · rw [g.sources, p.giveUpNoise_alerts]
  · intro i hi; rw [g.alerts i hi]; simp [Part.alertAt, p.giveUpNoise_alerts]
  · rw [k]; exact s
  · rw [k, p.giveUpNoise_exhausted]
  · have a := (h.giveUpNoise st).abandonLeak st
    rw [p.giveUpNoise_leak] at a
    refine ⟨a.1.gateSettle, ?_⟩
    rw [a.1.gateSettle_leak]
    · exact a.2
    all_goals rw [a.2]; rcases (p.leak.get st).phase.afterStop_at_rest with k | k <;> rw [k] <;> decide

/-! ## The report write and the end of a test -/

/-- Raising a source whose number is below the number of sources makes it pending with its detail. -/
theorem Part.raise_alertAt (p : Part) (x : Source) (d n : BitVec 16) (h : x.number < p.alerts.length) :
    (p.raise x d n).alertAt x.number = { pending := true, detail := d, report := n } := by
  simp [Part.alertAt, h]

theorem Part.raise_alertAt_other (p : Part) (x : Source) (d n : BitVec 16) {k : Nat} (h : k ≠ x.number) :
    (p.raise x d n).alertAt k = p.alertAt k := by
  simp only [Part.alertAt, Part.raise_alerts, List.getD_eq_getElem?_getD]
  rw [List.getElem?_set_ne (by omega)]

theorem Source.number_lt (x : Source) : x.number < 24 := by
  cases x <;> simp only [Source.number] <;> omega

theorem Part.reportAlerts_reports (p : Part) (st : Stn) (kind : EndKind) (n : BitVec 16) :
    (p.reportAlerts st kind n).reports = p.reports := by
  unfold Part.reportAlerts; dsimp only; repeat' split
  all_goals rfl

theorem Part.reportAlerts_station (p : Part) (st : Stn) (kind : EndKind) (n : BitVec 16) :
    (p.reportAlerts st kind n).station = p.station := by
  unfold Part.reportAlerts; dsimp only; repeat' split
  all_goals rfl

theorem Part.reportAlerts_length (p : Part) (st : Stn) (kind : EndKind) (n : BitVec 16) :
    (p.reportAlerts st kind n).alerts.length = p.alerts.length := by
  unfold Part.reportAlerts; dsimp only; repeat' split
  all_goals simp

theorem Part.reportAlerts_leak (p : Part) (st : Stn) (kind : EndKind) (n : BitVec 16) :
    (p.reportAlerts st kind n).leak = p.leak ∧ (p.reportAlerts st kind n).collector = p.collector ∧
    (p.reportAlerts st kind n).profile = p.profile ∧ (p.reportAlerts st kind n).tracker = p.tracker ∧
    (p.reportAlerts st kind n).manifold = p.manifold ∧ (p.reportAlerts st kind n).engine = p.engine ∧
    (p.reportAlerts st kind n).tables = p.tables := by
  unfold Part.reportAlerts; dsimp only; repeat' split
  all_goals exact ⟨rfl, rfl, rfl, rfl, rfl, rfl, rfl⟩

/-- REPORT_READY is pending with the report's number, but for a halt (R178). -/
theorem Part.reportAlerts_ready (p : Part) (st : Stn) (kind : EndKind) (n : BitVec 16) (h : kind ≠ .halted)
    (hl : p.alerts.length = 24) :
    (p.reportAlerts st kind n).alertAt (Source.reportReady st).number = { pending := true, detail := n, report := n } := by
  unfold Part.reportAlerts
  rw [if_neg h]
  have k : (p.raise (.reportReady st) n n).alertAt (Source.reportReady st).number = { pending := true, detail := n, report := n } :=
    Part.raise_alertAt _ _ _ _ (by rw [hl]; exact Source.number_lt _)
  dsimp only
  split
  · rw [Part.raise_alertAt_other, k]
    have := st.isLt; simp only [Source.number]; omega
  · exact k

theorem Part.dropReference_eq (p : Part) (k : Kind) (r : Option SlotRef) : ∃ f, p.dropReference k r = p.modTables f := by
  unfold Part.dropReference
  split
  · exact ⟨_, rfl⟩
  · exact ⟨id, rfl⟩

/-- The release of a station's tables changes the table store alone. -/
theorem Part.releaseTables_eq (p : Part) (st : Stn) : ∃ f, p.releaseTables st = p.modTables f := by
  unfold Part.releaseTables
  dsimp only
  obtain ⟨f1, h1⟩ := p.dropReference_eq .variant (p.station.get st).binding.variant
  rw [h1]
  obtain ⟨f2, h2⟩ := (p.modTables f1).dropReference_eq .profile (p.station.get st).binding.profile
  rw [h2]
  obtain ⟨f3, h3⟩ := ((p.modTables f1).modTables f2).dropReference_eq .limit (p.station.get st).binding.limit
  rw [h3]
  obtain ⟨f4, h4⟩ := (((p.modTables f1).modTables f2).modTables f3).dropReference_eq .leak (p.station.get st).binding.leakA
  rw [h4]
  obtain ⟨f5, h5⟩ := ((((p.modTables f1).modTables f2).modTables f3).modTables f4).dropReference_eq .leak
    (p.station.get st).binding.leakB
  rw [h5]
  exact ⟨fun t => f5 (f4 (f3 (f2 (f1 t)))), rfl⟩

/-- What the end of a test leaves (R10, R15, R17, R172, R178): the outer fields, executors, collectors, sequencers, engine and
manifold stay, the station's report is the newest one, and the station's tracker is STOPPED. -/
structure EndFrame (p q : Part) (st : Stn) (kind : EndKind) (final : StationState) : Prop where
  outer : q.outer = p.outer
  profile : q.profile = p.profile
  collector : q.collector = p.collector
  leak : q.leak = p.leak
  engine : q.engine = p.engine
  manifold : q.manifold = p.manifold
  sources : q.alerts.length = p.alerts.length
  ready : kind ≠ .halted → p.alerts.length = 24 →
    q.alertAt (Source.reportReady st).number =
      { pending := true, detail := p.reports.nextNumber, report := p.reports.nextNumber }
  others : ∀ i, i ≠ st → q.station.get i = p.station.get i ∧ q.tracker.get i = p.tracker.get i
  tracker : q.tracker.get st = { p.tracker.get st with tracking := false }
  station : q.station.get st = { p.station.get st with
    lines := (p.station.get st).lines.map (CheckLine.finish (p.collector.get st).exhausted), endCycle := some p.cycleNow
    state := final }
  reports : q.reports = p.reports.append ((p.finishLines st).reportOf st kind)

theorem Part.endTest_frame (p : Part) (st : Stn) (kind : EndKind) (final : StationState) :
    EndFrame p (p.endTest st kind final) st kind final := by
  have e : (p.endTest st kind final).outer = p.outer := by simp
  unfold Part.endTest at e ⊢
  dsimp only at e ⊢
  obtain ⟨f, hf⟩ := (p.writeReport st kind).releaseTables_eq st
  rw [hf] at e ⊢
  have hnow : ((p.writeReport st kind).modTables f).cycleNow = p.cycleNow := by
    have : ((p.writeReport st kind).modTables f).port = p.port := Part.outer_port (by simp)
    simp only [Part.cycleNow, this]
  unfold Part.writeReport at *
  dsimp only at *
  have a := ((p.finishLines st).modReports fun r => r.append ((p.finishLines st).reportOf st kind)).reportAlerts_leak st kind
    ((p.finishLines st).reportOf st kind).number
  obtain ⟨a1, a2, a3, a4, a5, a6, a7⟩ := a
  have b := ((p.finishLines st).modReports fun r => r.append ((p.finishLines st).reportOf st kind)).reportAlerts_station st kind
    ((p.finishLines st).reportOf st kind).number
  have c := ((p.finishLines st).modReports fun r => r.append ((p.finishLines st).reportOf st kind)).reportAlerts_reports st kind
    ((p.finishLines st).reportOf st kind).number
  have d := ((p.finishLines st).modReports fun r => r.append ((p.finishLines st).reportOf st kind)).reportAlerts_length st kind
    ((p.finishLines st).reportOf st kind).number
  refine ⟨e, ?_, ?_, ?_, ?_, ?_, ?_, fun hk hl => ?_, fun i hi => ⟨?_, ?_⟩, ?_, ?_, ?_⟩
  · simp only [Part.modStation_profile, Part.modTracker_profile, Part.modTables_profile, a3]; rfl
  · simp only [Part.modStation_collector, Part.modTracker_collector, Part.modTables_collector, a2]; rfl
  · simp only [Part.modStation_leak, Part.modTracker_leak, Part.modTables_leak, a1]; rfl
  · simp only [Part.modStation_engine, Part.modTracker_engine, Part.modTables_engine, a6]; rfl
  · simp only [Part.modStation_manifold, Part.modTracker_manifold, Part.modTables_manifold, a5]; rfl
  · simp only [Part.modStation_alerts, Part.modTracker_alerts, Part.modTables_alerts, d]; rfl
  · exact ((p.finishLines st).modReports _).reportAlerts_ready st kind _ hk hl
  · simp only [Part.modStation_station, Four.get_set_other _ _ hi, Part.modTracker_station, Part.modTables_station, b]
    simp [Part.finishLines, Four.get_set_other _ _ hi]
  · simp only [Part.modStation_tracker, Part.modTracker_tracker, Four.get_set_other _ _ hi, Part.modTables_tracker, a4]; rfl
  · simp only [Part.modStation_tracker, Part.modTracker_tracker, Four.get_set_same, Part.modTables_tracker, a4]; rfl
  · simp only [Part.modStation_station, Part.modTracker_station, Four.get_set_same, Part.modTables_station, b]
    simp only [Part.cycleNow] at hnow
    simp only [Part.cycleNow, Part.modTracker_port, hnow]
    simp [Part.finishLines]
  · simp only [Part.modStation_reports, Part.modTracker_reports, Part.modTables_reports, c]; rfl

/-- The report of a halt or an end names its station, the next number, its end kind and halt reason. -/
theorem Part.endTest_report (p : Part) (st : Stn) (kind : EndKind) :
    let r := (p.finishLines st).reportOf st kind
    r.station = st ∧ r.number = p.reports.nextNumber ∧ r.endKind = kind ∧
    r.haltReason = (if kind = .halted then (p.station.get st).haltReason else .none) := by
  simp [Part.reportOf, Part.finishLines]

/-- The verdict of R174 as the tests over the list say it. -/
theorem finalVerdict_eq (kind : EndKind) (ls : List CheckLine) : finalVerdict kind ls = verdictBy kind ls := by
  have a : ∀ (g : Grade) (o : LineOutcome), (ls.any (fun l => l.grade = g && l.outcome = o) = true) =
      (∃ l ∈ ls, l.grade = g ∧ l.outcome = o) := fun g o => by simp
  simp only [finalVerdict, verdictBy, a]

/-- The record of a halt or an end (R175), `q` being the part after it as far as the record reads it. -/
theorem Part.reportOf_recorded (p q : Part) (st : Stn) (kind : EndKind) (reason : HaltReason)
    (hr : (if kind = .halted then (p.station.get st).haltReason else .none) = reason)
    (hs : q.station.get st = { p.station.get st with
      lines := (p.station.get st).lines.map (CheckLine.finish (p.collector.get st).exhausted), endCycle := (q.station.get st).endCycle
      state := (q.station.get st).state }) (hl : q.leak = p.leak) :
    p.RecordedAs q st kind reason ((p.finishLines st).reportOf st kind) := by
  have field {α : Type} (f : Station → α) := congrArg f hs
  refine ⟨rfl, rfl, (field Station.serial).symm ▸ ?_, (field Station.variantCode).symm ▸ ?_,
    (field Station.startCycle).symm ▸ ?_, rfl, rfl, ?_, finalVerdict_eq _ _, (field Station.clamped).symm ▸ ?_,
    (field Station.counters).symm ▸ ?_, (field Station.lines).symm ▸ ?_, ?_, ?_⟩
  all_goals first | (rw [hl]; rfl) | simp [Part.reportOf, Part.finishLines, ← hr]

/-- A test that ends in IDLE ends as R10, R15 and R178 say. -/
theorem Part.endTest_ends (p : Part) (st : Stn) (kind : EndKind) (hk : kind ≠ .halted) (hl : p.alerts.length = 24) :
    p.EndedAs (p.endTest st kind .idle) st kind := by
  have e := p.endTest_frame st kind .idle
  refine ⟨by rw [e.station], by rw [e.station], by rw [e.tracker], by rw [e.station]; rfl, ⟨_, by rw [e.reports]; rfl, ?_⟩,
    by rw [e.reports]; rfl, by rw [e.reports]; rfl, e.ready hk hl⟩
  exact p.reportOf_recorded _ st kind _ (if_neg hk) (by rw [e.station]) e.leak

/-! ## The halt -/

/-- A halt of an active station is the one of R17. -/
theorem Part.halt_as (p : Part) (st : Stn) (reason : HaltReason) (ha : p.activeAt st = true) (hair : p.AirLaw)
    (hl : p.alerts.length = 24) : p.HaltedAs (p.halt st reason) st reason := by
  unfold Part.halt
  rw [if_pos ha]
  dsimp only
  generalize hp0 : p.modProfile st (fun e => { e with setpoint := 0, remainder := 0, pendingAbort := false }) = p0
  have air0 : p0.AirLaw := by subst hp0; exact hair
  have s := p0.stopBlocks_frame st
  generalize hp1 : p0.stopBlocks st = p1 at s
  generalize hp2 : p1.modStation st (fun x => { x with haltReason := reason }) = p2
  have e := p2.endTest_frame st .halted .halted
  generalize hp3 : p2.endTest st .halted .halted = p3 at e
  have port : p2.port = p.port := by
    subst hp2; show p1.port = _; rw [Part.outer_port s.outer]; subst hp0; rfl
  have now : p2.cycleNow = p.cycleNow := by simp [Part.cycleNow, port]
  have reports : p2.reports = p.reports := by
    subst hp2; show p1.reports = _; rw [s.reports]; subst hp0; rfl
  have profile : p3.profile.get st = { p.profile.get st with setpoint := 0, remainder := 0, pendingAbort := false } := by
    rw [e.profile]; subst hp2; show p1.profile.get st = _; rw [s.profile]; subst hp0; simp
  have length : p3.alerts.length = 24 := by
    rw [e.sources]; subst hp2; show p1.alerts.length = _; rw [s.sources]; subst hp0; exact hl
  have leak : (p3.leak.get st).phase = (p.leak.get st).phase.afterStop := by
    rw [e.leak]; subst hp2; show (p1.leak.get st).phase = _; rw [(s.air air0).2]; subst hp0; rfl
  have coll : (p3.collector.get st).state.stopped := by
    rw [e.collector]; subst hp2; exact s.collector
  have lines : (p3.station.get st).lines =
      (p.station.get st).lines.map (CheckLine.finish (p.collector.get st).exhausted) := by
    have a : (p2.station.get st).lines = (p.station.get st).lines := by
      subst hp2; simp only [Part.modStation_station, Four.get_set_same]
      rw [sameStations_lines s.station]; subst hp0; rfl
    have b : (p2.collector.get st).exhausted = (p.collector.get st).exhausted := by
      subst hp2; show (p1.collector.get st).exhausted = _; rw [s.exhausted]; subst hp0; rfl
    rw [e.station, a, b]
  have record := p2.reportOf_recorded p3 st .halted reason (by subst hp2; simp) (by rw [e.station]) e.leak
  obtain ⟨c1, c2, c3, c4, c5, c6, c⟩ := record
  refine ⟨?_, ?_, ?_, ?_, ?_, ?_, ?_, ?_, lines, ⟨_, ?_, c1.trans (by rw [reports]), c2, c3, c4, c5, c6.trans now, c⟩,
    ?_, ?_, ?_⟩
  · show (p3.station.get st).state = _; rw [e.station]
  · show (p3.station.get st).haltReason = _; rw [e.station]; subst hp2; simp
  · show (p3.station.get st).endCycle = _; rw [e.station, now]
  · show (p3.profile.get st).setpoint = _; rw [profile]
  · show (p3.profile.get st).pendingAbort = _; rw [profile]
  · show (p3.tracker.get st).tracking = _; rw [e.tracker]
  · exact leak
  · exact coll
  · show p3.reports.held = _; rw [e.reports, ← reports]; rfl
  · show p3.reports.reservations = _; rw [e.reports, reports]; rfl
  · show p3.reports.nextNumber = _; rw [e.reports, reports]; rfl
  · rw [Part.raise_alertAt _ _ _ _ (by rw [length]; exact Source.number_lt _), reports]

/-- A halt keeps the law of the manifold. -/
theorem Part.AirLaw.halt {p : Part} (h : p.AirLaw) (st : Stn) (reason : HaltReason) : (p.halt st reason).AirLaw := by
  unfold Part.halt
  split
  · dsimp only
    have s := (p.modProfile st (fun e => { e with setpoint := 0, remainder := 0, pendingAbort := false })).stopBlocks_frame st
    have a := (s.air h).1
    have e := (((p.modProfile st (fun e => { e with setpoint := 0, remainder := 0, pendingAbort := false })).stopBlocks
      st).modStation st (fun x => { x with haltReason := reason })).endTest_frame st .halted .halted
    refine a.congr (fun i => ?_) ?_
    · rw [Part.raise_leak, e.leak]; rfl
    · rw [Part.raise_manifold, e.manifold]; rfl
  · exact h

/-- What a halt shows in any state: an active station is HALTED with its reason, setpoint 0 and a new report; the other stations
stay but for their counters, and so do their executors and trackers. -/
structure HaltFrame (p q : Part) (st : Stn) (reason : HaltReason) : Prop where
  outer : q.outer = p.outer
  others : ∀ i, i ≠ st → { q.station.get i with counters := (p.station.get i).counters } = p.station.get i
  executors : ∀ i, i ≠ st → q.profile.get i = p.profile.get i
  trackers : ∀ i, i ≠ st → q.tracker.get i = p.tracker.get i
  halted : p.activeAt st = true → (q.station.get st).state = .halted ∧ (q.station.get st).haltReason = reason ∧
    (q.profile.get st).setpoint = 0 ∧
    ∃ r, q.reports.held = p.reports.held ++ [r] ∧ r.station = st ∧ r.endKind = .halted ∧ r.haltReason = reason
  spared : p.activeAt st = false → q = p

theorem Part.halt_frame (p : Part) (st : Stn) (reason : HaltReason) : HaltFrame p (p.halt st reason) st reason := by
  cases ha : p.activeAt st
  · have e : p.halt st reason = p := by unfold Part.halt; rw [if_neg (by simp [ha])]
    rw [e]
    exact ⟨rfl, fun _ _ => rfl, fun _ _ => rfl, fun _ _ => rfl, fun h => by simp [ha] at h, fun _ => rfl⟩
  · have o : (p.halt st reason).outer = p.outer := by simp
    unfold Part.halt at o ⊢
    rw [if_pos ha] at o ⊢
    dsimp only at o ⊢
    generalize hp0 : p.modProfile st (fun e => { e with setpoint := 0, remainder := 0, pendingAbort := false }) = p0 at o ⊢
    have s := p0.stopBlocks_frame st
    generalize hp1 : p0.stopBlocks st = p1 at s o ⊢
    generalize hp2 : p1.modStation st (fun x => { x with haltReason := reason }) = p2 at o ⊢
    have e := p2.endTest_frame st .halted .halted
    have r := p2.endTest_report st .halted
    dsimp only at r
    obtain ⟨r1, r2, r3, r4⟩ := r
    generalize hp3 : p2.endTest st .halted .halted = p3 at e o ⊢
    refine ⟨o, fun i hi => ?_, fun i hi => ?_, fun i hi => ?_, fun _ => ⟨?_, ?_, ?_, ?_⟩, fun h => by simp [ha] at h⟩
    · have h1 : p3.station.get i = p1.station.get i := by rw [(e.others i hi).1]; subst hp2; simp [Four.get_set_other _ _ hi]
      have h2 := s.station i
      show ({ p3.station.get i with counters := _ } : Station) = _
      rw [h1]; subst hp0; exact h2.1
    · show p3.profile.get i = _
      rw [e.profile]; subst hp2; show p1.profile.get i = _; rw [s.profile]; subst hp0; simp [Four.get_set_other _ _ hi]
    · show p3.tracker.get i = _
      rw [(e.others i hi).2]; subst hp2; show p1.tracker.get i = _; rw [s.tracker]; subst hp0; rfl
    · show (p3.station.get st).state = _; rw [e.station]
    · show (p3.station.get st).haltReason = _; rw [e.station]; subst hp2; simp
    · show (p3.profile.get st).setpoint = _
      rw [e.profile]; subst hp2; show (p1.profile.get st).setpoint = _; rw [s.profile]; subst hp0; simp
    · have hr : p2.reports = p.reports := by
        subst hp2; show p1.reports = _; rw [s.reports]; subst hp0; rfl
      refine ⟨_, ?_, r1, r3, ?_⟩
      · show p3.reports.held = _; rw [e.reports, ← hr]; rfl
      · rw [r4]; subst hp2; simp

theorem HaltFrame.state {p q : Part} {st i : Stn} {reason : HaltReason} (h : HaltFrame p q st reason) (hi : i ≠ st) :
    (q.station.get i).state = (p.station.get i).state ∧ (q.station.get i).haltReason = (p.station.get i).haltReason ∧
    (q.station.get i).required = (p.station.get i).required := by
  have a := h.others i hi
  exact ⟨(congrArg Station.state a :), (congrArg Station.haltReason a :), (congrArg Station.required a :)⟩

/-- A list of stations is halted in turn where a test names them (R16, R17): each named active station is HALTED with its report
held, every other station keeps its state. -/
structure HaltsFrame (p q : Part) (l : List Stn) (named : Stn → Prop) (reason : HaltReason) : Prop where
  outer : q.outer = p.outer
  held : ∀ r ∈ p.reports.held, r ∈ q.reports.held
  required : ∀ i, (q.station.get i).required = (p.station.get i).required
  halted : ∀ i, i ∈ l → named i → p.activeAt i = true → (q.station.get i).state = .halted ∧
    (q.station.get i).haltReason = reason ∧ (q.profile.get i).setpoint = 0 ∧
    ∃ r ∈ q.reports.held, r.station = i ∧ r.endKind = .halted ∧ r.haltReason = reason
  spared : ∀ i, ¬(i ∈ l ∧ named i ∧ p.activeAt i = true) → (q.station.get i).state = (p.station.get i).state ∧
    (q.station.get i).haltReason = (p.station.get i).haltReason ∧ q.profile.get i = p.profile.get i

theorem Part.halt_required (p : Part) (st i : Stn) (reason : HaltReason) :
    ((p.halt st reason).station.get i).required = (p.station.get i).required := by
  by_cases hi : i = st
  · subst hi
    unfold Part.halt
    split
    · dsimp only
      generalize hp0 : p.modProfile i (fun e => { e with setpoint := 0, remainder := 0, pendingAbort := false }) = p0
      have s := p0.stopBlocks_frame i
      generalize hp1 : p0.stopBlocks i = p1 at s
      have e := (p1.modStation i (fun x => { x with haltReason := reason })).endTest_frame i .halted .halted
      rw [Part.raise_station, e.station]
      have := s.station i
      have k := congrArg Station.required this.1
      simp only [Part.modStation_station, Four.get_set_same]
      refine k.trans ?_
      subst hp0; rfl
    · rfl
  · exact ((p.halt_frame st reason).state hi).2.2

theorem Part.halts_frame (l : List Stn) (f : Part → Stn → Bool) (named : Stn → Prop) (reason : HaltReason) (p : Part)
    (hf : ∀ q : Part, (∀ i, (q.station.get i).required = (p.station.get i).required) → ∀ i, f q i = true ↔ named i) :
    HaltsFrame p (l.foldl (fun p st => if f p st = true then p.halt st reason else p) p) l named reason := by
  induction l generalizing p with
  | nil =>
    exact ⟨rfl, fun _ h => h, fun _ => rfl, fun i h => by simp at h, fun i _ => ⟨rfl, rfl, rfl⟩⟩
  | cons st rest ih =>
    rw [List.foldl_cons]
    by_cases hn : named st
    · rw [if_pos ((hf p (fun _ => rfl) st).2 hn)]
      have one := p.halt_frame st reason
      have req := fun i => p.halt_required st i reason
      have more := ih (p.halt st reason) (fun q hq i => hf q (fun i => (hq i).trans (req i)) i)
      refine ⟨more.outer.trans one.outer, fun r hr => more.held r ?_, fun i => (more.required i).trans (req i), fun i hi hni ha => ?_,
        fun i hi => ?_⟩
      · cases ha : p.activeAt st
        · rw [one.spared ha]; exact hr
        · obtain ⟨-, -, -, x, hx, -⟩ := one.halted ha
          rw [hx]; exact List.mem_append_left _ hr
      · by_cases k : i = st
        · subst k
          obtain ⟨a, b, c, r, d, e⟩ := one.halted ha
          have na : (p.halt i reason).activeAt i = false := by simp [Part.activeAt, a, StationState.active]
          obtain ⟨s1, s2, s3⟩ := more.spared i (by simp [na])
          exact ⟨s1.trans a, s2.trans b, by rw [s3]; exact c, r, more.held r (by rw [d]; simp), e⟩
        · have hs := one.state k
          have ha' : (p.halt st reason).activeAt i = true := by simpa [Part.activeAt, hs.1] using ha
          have : i ∈ rest := by simpa [k] using hi
          exact more.halted i this hni ha'
      · by_cases k : i = st
        · subst k
          have ha : p.activeAt i = false := by simpa [hn] using hi
          have e := one.spared ha
          rw [e] at more ⊢
          exact more.spared i (by simp [ha])
        · have hs := one.state k
          obtain ⟨s1, s2, s3⟩ := more.spared i (by
            intro ⟨x, y, z⟩
            exact hi ⟨List.mem_cons_of_mem _ x, y, by simpa [Part.activeAt, hs.1] using z⟩)
          exact ⟨s1.trans hs.1, s2.trans hs.2.1, s3.trans (one.executors i k)⟩
    · rw [if_neg (fun h => hn ((hf p (fun _ => rfl) st).1 h))]
      have more := ih p hf
      refine ⟨more.outer, more.held, more.required, fun i hi hni ha => ?_, fun i hi => ?_⟩
      · refine more.halted i ?_ hni ha
        rcases List.mem_cons.1 hi with k | k
        · subst k; exact absurd hni hn
        · exact k
      · exact more.spared i (fun ⟨x, y, z⟩ => hi ⟨List.mem_cons_of_mem _ x, y, z⟩)

/-- Every station stands in a station order. -/
theorem mem_stationOrder (order : List Stn) (i : Stn) : i ∈ stationOrder order := by
  unfold stationOrder
  by_cases h : i ∈ order
  · exact List.mem_append_left _ h
  · refine List.mem_append_right _ (List.mem_filter.2 ⟨?_, by simp [h]⟩)
    match i with
    | 0 => simp [allStations]
    | 1 => simp [allStations]
    | 2 => simp [allStations]
    | 3 => simp [allStations]

/-! ## An invalid attempt -/

/-- An attempt that ends with a cause, and what the gate then lets go. -/
theorem Part.windowInvalid_ended (p : Part) (st : Stn) (cause : Cause) (hl : p.alerts.length = 24) :
    p.AttemptEnded (p.windowInvalid st cause) st cause := by
  unfold Part.windowInvalid
  have gn := GateNotice.gateSettle (p.attemptEnds st cause)
  have ac : (p.attemptEnds st cause).collector.get st = (p.collector.get st).retry := by
    rw [p.attemptEnds_collector st cause]; simp
  have hn : ((p.attemptEnds st cause).collector.get st).state ≠ .collecting := by
    rw [ac]; exact Collector.retry_not_collecting _
  have hk : (p.attemptEnds st cause).gateSettle.collector.get st = (p.collector.get st).retry := (gn.keeps hn).trans ac
  have hs := (gn.spared st hn).1
  have hc : ∀ f : Counters → Nat, (∀ k d, f { k with deferrals := d } = f k) →
      f ((p.attemptEnds st cause).gateSettle.station.get st).counters = f ((p.station.get st).counters.invalid cause) := by
    intro f hf
    have e := congrArg (fun x : Station => f x.counters) hs
    simp only [Station.undeferred, hf] at e
    rw [e, Part.attemptEnds_station]; simp
  refine ⟨?_, fun x => ?_, ?_, fun h => ?_, fun h => ?_⟩
  · generalize hq : ((p.attemptEnds st cause).gateSettle.station.get st).counters = k' at hc ⊢
    have c1 := hc Counters.valid (fun _ _ => rfl)
    have c2 := hc Counters.disturbed (fun _ _ => rfl)
    have c3 := hc Counters.unsteady (fun _ _ => rfl)
    have c4 := hc Counters.defect (fun _ _ => rfl)
    have c5 := hc Counters.direction (fun _ _ => rfl)
    have c6 := hc Counters.index (fun _ _ => rfl)
    have c7 := hc Counters.overtime (fun _ _ => rfl)
    have c8 := hc Counters.steps (fun _ _ => rfl)
    cases k'
    simp only at c1 c2 c3 c4 c5 c6 c7 c8
    subst c1 c2 c3 c4 c5 c6 c7 c8
    cases cause <;> rfl
  · have := gn.quiet st x
    simp at this
  · rw [hk]; unfold Collector.retry; split <;> rfl
  · rw [hk]; unfold Collector.retry; rw [if_pos (Nat.pos_of_ne_zero h)]; exact ⟨rfl, rfl, rfl, rfl⟩
  · rw [hk]; unfold Collector.retry; rw [if_neg (by omega)]
    refine ⟨rfl, rfl, rfl, rfl, ?_⟩
    rw [(gn.spared st hn).2]
    unfold Part.attemptEnds; dsimp only
    rw [if_pos h]
    exact Part.raise_alertAt _ _ _ _ (by show _ < p.alerts.length; rw [hl]; exact Source.number_lt _)

end Sys2Proof.Machine
end

