-- ==== Sys2Proof/Laws/Commands.lean ====
section
/-!
SUPPORT. What no command of the cell controller touches while it is taken: the reset line, the time, the ring port, the
queues of the command unit and the frames put on the ring.
-/
namespace Sys2Proof.Machine

open Sys2Proof

/-- The fields that a command leaves to the ring port and the command unit. -/
structure Link where
  resetHeld : Bool
  clock : Nat
  port : Port
  commands : CommandUnit
  ringOut : List (Pass × Frame)

/-- The link fields of a part. -/
def Part.link (p : Part) : Link := ⟨p.resetHeld, p.clock, p.port, p.commands, p.ringOut⟩

theorem Part.link_of_outer {p q : Part} (h : p.outer = q.outer) : p.link = q.link := by
  simp only [Part.link, Part.outer_resetHeld h, Part.outer_clock h, Part.outer_port h, Part.outer_commands h,
    Part.outer_ringOut h]

theorem Part.link_port {p q : Part} (h : p.link = q.link) : p.port = q.port := congrArg Link.port h
theorem Part.link_commands {p q : Part} (h : p.link = q.link) : p.commands = q.commands := congrArg Link.commands h
theorem Part.link_ringOut {p q : Part} (h : p.link = q.link) : p.ringOut = q.ringOut := congrArg Link.ringOut h

theorem Part.refuse_part (p : Part) (code : ReplyCode) : (p.refuse code).part = p := rfl
theorem Part.ok_part (p : Part) (results : List Byte) : (p.ok results).part = p := rfl

theorem Part.accept_link (p : Part) (st : Stn) (slot : BitVec 5) (serial : Entry) (n : Named) :
    (p.accept st slot serial n).link = p.link := by
  refine Part.link_of_outer ?_
  unfold Part.accept
  simp

theorem Part.startAxle_link (p : Part) (st : Stn) (slot : BitVec 5) (serial : Entry) :
    (p.startAxle st slot serial).part.link = p.link := by
  unfold Part.startAxle
  split
  · rfl
  · exact p.accept_link st slot serial _

theorem Part.abort_link (p : Part) (station mode : Byte) : (p.abort station mode).part.link = p.link := by
  unfold Part.abort
  split
  · unfold Part.abortStation
    split
    · rfl
    · rfl
    · exact Part.link_of_outer (by simp [Part.ok])
    · exact Part.link_of_outer (by simp [Part.ok])
    · refine Part.link_of_outer ?_
      simp only [Part.ok]
      split <;> simp
    · rfl
  · rfl

theorem Part.clearStation_link (p : Part) (station : Byte) : (p.clearStation station).part.link = p.link := by
  unfold Part.clearStation
  repeat' split
  all_goals rfl

theorem Part.snapshot_link (p : Part) (station : Byte) : (p.snapshot station).part.link = p.link := by
  unfold Part.snapshot
  split <;> rfl

theorem Part.snapshotRead_link (p : Part) : p.snapshotRead.part.link = p.link := by
  unfold Part.snapshotRead
  split <;> rfl

theorem Part.dropMap_link (p : Part) (k : Kind) : (p.dropMap k).link = p.link := by
  unfold Part.dropMap
  split <;> rfl

theorem Part.abandonLoad_link (p : Part) (k : Kind) (n : Nat) : (p.abandonLoad k n).link = p.link := by
  unfold Part.abandonLoad
  repeat' split
  all_goals rfl

theorem Part.loadBegin_link (p : Part) (kind slot count : Byte) : (p.loadBegin kind slot count).part.link = p.link := by
  unfold Part.loadBegin
  repeat' split
  all_goals try rfl
  unfold Part.beginLoad
  split
  · rfl
  · exact (Part.dropMap_link _ _).trans (p.abandonLoad_link _ _)

theorem Part.loadEntry_link (p : Part) (index : Nat) (content : Entry) : (p.loadEntry index content).part.link = p.link := by
  unfold Part.loadEntry
  dsimp only
  repeat' split
  all_goals rfl

theorem Part.loadEnd_link (p : Part) : p.loadEnd.part.link = p.link := by
  unfold Part.loadEnd
  repeat' split
  all_goals try rfl
  unfold Part.completeLoad
  simp only [Part.ok]
  split <;> rfl

theorem Part.clearTable_link (p : Part) (kind slot : Byte) : (p.clearTable kind slot).part.link = p.link := by
  unfold Part.clearTable
  repeat' split
  all_goals try rfl
  exact Part.dropMap_link _ _

theorem Part.tableStatus_link (p : Part) (kind slot : Byte) : (p.tableStatus kind slot).part.link = p.link := by
  unfold Part.tableStatus
  repeat' split
  all_goals rfl

theorem Part.fetchReport_link (p : Part) (segment : Byte) : (p.fetchReport segment).part.link = p.link := by
  unfold Part.fetchReport
  repeat' split
  all_goals rfl

theorem Part.releaseReport_link (p : Part) (number : BitVec 16) : (p.releaseReport number).part.link = p.link := by
  unfold Part.releaseReport
  repeat' split
  all_goals rfl

theorem Part.partReset_link (p : Part) (scope : Byte) : (p.partReset scope).part.link = p.link := by
  unfold Part.partReset
  repeat' split
  all_goals rfl

/-- A command handed to its owner leaves the link fields (R185, R187). -/
theorem Part.perform_link (p : Part) (c : Command) : (p.perform c).part.link = p.link := by
  unfold Part.perform
  split
  · exact p.startAxle_link _ _ _
  · split
    · exact p.loadEntry_link _ _
    · unfold Part.plainCommand
      split
      · rfl
      · exact p.loadBegin_link _ _ _
      · exact p.loadEnd_link
      · exact p.clearTable_link _ _
      · exact p.tableStatus_link _ _
      · exact p.abort_link _ _
      · exact p.clearStation_link _
      · exact p.snapshot_link _
      · exact p.snapshotRead_link
      · rfl
      · exact p.fetchReport_link _
      · exact p.releaseReport_link _
      · exact p.partReset_link _
      · rfl

/-- Taking a command leaves the command queue and places one reply with the command's code and tag (R186, R187). -/
theorem Part.takeCommand_commands (p : Part) (c : Command) :
    (p.takeCommand c).commands.queue = p.commands.queue ∧
    ∃ r, (p.takeCommand c).commands.reply = some r ∧ r.code = c.code ∧ r.tag = c.tag ∧ r.results.length = 15 := by
  refine ⟨?_, _, rfl, rfl, rfl, by simp [Answer.replyTo, padTo]⟩
  show (p.perform c).part.commands.queue = _
  rw [Part.link_commands (p.perform_link c)]

theorem Part.takeCommand_port (p : Part) (c : Command) : (p.takeCommand c).port = p.port := by
  show (p.perform c).part.port = p.port
  exact Part.link_port (p.perform_link c)

theorem Part.takeCommand_ringOut (p : Part) (c : Command) : (p.takeCommand c).ringOut = p.ringOut := by
  show (p.perform c).part.ringOut = p.ringOut
  exact Part.link_ringOut (p.perform_link c)

end Sys2Proof.Machine
end

