-- ==== Sys2Proof/Laws/Ring.lean ====
section
/-!
SUPPORT. The ring port as later proofs cite it: a frame of the return pass that is good, the entry that takes it, time in
which nothing falls due or only an evaluation does, a good CYCLE frame, and the filling of the insertion list.
-/
namespace Sys2Proof.Machine

open Sys2Proof

/-! ## Frames of the return pass -/

theorem Part.listening_released {p : Part} (h : p.listening = true) : p.resetHeld = false := by
  simp [Part.listening] at h; exact h.1.1

theorem Part.good_released {p : Part} {pass : Pass} {f : Frame} (h : p.good pass f = true) : p.resetHeld = false := by
  simp only [Part.good, Bool.and_eq_true] at h
  exact Part.listening_released h.1.1.1.1.1.1

theorem Part.forward_returning {p : Part} (h : p.resetHeld = false) (f : Frame) : p.forward .returning f = p.passed f := by
  simp [Part.forward, endsPass, h, Part.append, Part.emit, Part.passed]

/-- A good frame is forwarded and delivered. -/
theorem Part.receive_good {p : Part} {f : Frame} (h : p.good .returning f = true) (order : List Stn) :
    p.receive .returning f order = (p.passed f).deliver f order := by
  unfold Part.receive
  rw [Part.forward_returning (Part.good_released h)]
  exact if_pos h

/-- The lowest-numbered matching entry claims and takes the frame. -/
theorem Router.take_claims {r : Router} {x : Sample} {source : Addr} {k : Nat} {c : Channel} (h : r.Claims x source k c) :
    r.take x source =
      ({ entries := r.entries.set k (c.took x source)
         roles := r.roles.map (fun k =>
          if k.owner = c.entry.owner ∧ k.role = c.entry.role then { k with source := some source } else k) },
        some c.entry) := by
  have key : ∀ (es : List Channel) (k : Nat), (Router.mk es []).Claims x source k c →
      claim x source es = (es.set k (c.took x source), some c.entry) := by
    intro es
    induction es with
    | nil => intro k h; simp [Router.Claims] at h
    | cons a as ih =>
      intro k ⟨h1, h2, h3, h4, h5⟩
      cases k with
      | zero =>
        simp at h1; subst h1
        simp [claim, MapEntry.matchesSource, h2, h3, h4, Channel.record, Channel.took]
      | succ k =>
        have i := ih k ⟨by simpa using h1, h2, h3, h4, fun j c' hj hc => h5 (j + 1) c' (by omega) (by simpa using hc)⟩
        simp [claim, MapEntry.matchesSource, h5 0 a (by omega) rfl, i]
  have e : claim x source r.entries = _ := key r.entries k h
  simp [Router.take, e]

/-- A frame that no entry matches, or whose lowest-numbered match reads another kind or has its seen flag set, is dropped. -/
theorem Router.take_dropped {r : Router} {x : Sample} {source : Addr}
    (h : (∀ c ∈ r.entries, (source &&& c.entry.mask) ≠ c.entry.base) ∨
      ∃ (k : Nat) (c : Channel), r.entries[k]? = some c ∧ (source &&& c.entry.mask) = c.entry.base ∧
        (∀ j c', j < k → r.entries[j]? = some c' → (source &&& c'.entry.mask) ≠ c'.entry.base) ∧
        (roleReads c.entry.role x = false ∨ c.seen = true)) :
    r.take x source = (r, none) := by
  have key : ∀ es : List Channel,
      ((∀ c ∈ es, (source &&& c.entry.mask) ≠ c.entry.base) ∨
        ∃ (k : Nat) (c : Channel), es[k]? = some c ∧ (source &&& c.entry.mask) = c.entry.base ∧
          (∀ j c', j < k → es[j]? = some c' → (source &&& c'.entry.mask) ≠ c'.entry.base) ∧
          (roleReads c.entry.role x = false ∨ c.seen = true)) →
      claim x source es = (es, none) := by
    intro es
    induction es with
    | nil => intro _; rfl
    | cons a as ih =>
      rintro (h | ⟨k, c, h1, h2, h3, h4⟩)
      · have i := ih (.inl (fun c hc => h c (List.mem_cons_of_mem _ hc)))
        simp [claim, MapEntry.matchesSource, h a (by simp), i]
      · cases k with
        | zero =>
          simp at h1; subst h1
          rcases h4 with h4 | h4 <;> simp [claim, MapEntry.matchesSource, h2, h4]
        | succ k =>
          have i := ih (.inr ⟨k, c, by simpa using h1, h2,
            fun j c' hj hc => h3 (j + 1) c' (by omega) (by simpa using hc), h4⟩)
          simp [claim, MapEntry.matchesSource, h3 0 a (by omega) rfl, i]
  have e := key r.entries h
  simp [Router.take, e]

/-- A good frame of a sample kind that an entry takes. -/
theorem Part.receive_claimed {p : Part} {f : Frame} {x : Sample} {k : Nat} {c : Channel} (h : p.good .returning f = true)
    (hs : sampleOf f = some x) (hc : p.router.Claims x (frameSource f) k c) (order : List Stn) :
    p.receive .returning f order = (p.took f x k c).arrivalReport c.entry x order := by
  have e : (p.passed f).router.take x (frameSource f) = _ := Router.take_claims hc
  rw [Part.receive_good h]
  simp only [Part.deliver, hs, Part.sampleArrives, Part.intake, e]
  rfl

/-- A good frame of a sample kind that no entry takes. -/
theorem Part.receive_dropped {p : Part} {f : Frame} {x : Sample} (h : p.good .returning f = true) (hs : sampleOf f = some x)
    (hd : p.router.take x (frameSource f) = (p.router, none)) (order : List Stn) :
    p.receive .returning f order = p.passed f := by
  have e : (p.passed f).router.take x (frameSource f) = _ := hd
  rw [Part.receive_good h]
  simp only [Part.deliver, hs, Part.sampleArrives, Part.intake, e]
  rfl

/-! ## Time -/

/-- What time in which at most evaluations fall due leaves: port, router, queues, ring, executors and station states. -/
structure Elapsed (p q : Part) (us : Nat) : Prop where
  held : q.resetHeld = p.resetHeld
  port : q.port = { p.port with lossTimer := if p.port.up then p.port.lossTimer + us else p.port.lossTimer }
  router : q.router = p.router
  commands : q.commands = p.commands
  ring : q.ringOut = p.ringOut
  clock : q.clock = p.clock + us
  state : ∀ i, (q.station.get i).state = (p.station.get i).state
  profile : q.profile = p.profile
  manifold : q.manifold = p.manifold
  alerts : q.alerts = p.alerts
  tables : q.tables = p.tables

theorem Part.passTime_elapsed (p : Part) (us : Nat) : Elapsed p (p.passTime us) us :=
  ⟨rfl, rfl, rfl, rfl, rfl, rfl, fun _ => rfl, rfl, rfl, rfl, rfl⟩

/-- What the end of an evaluation leaves beside the outer fields. -/
theorem Part.evaluationEnd_leaves (p : Part) :
    (∀ i, (p.evaluationEnd.station.get i).state = (p.station.get i).state) ∧ p.evaluationEnd.profile = p.profile ∧
    p.evaluationEnd.manifold = p.manifold ∧ p.evaluationEnd.alerts = p.alerts ∧ p.evaluationEnd.tables = p.tables := by
  have t : ∀ q : Part, q.analysisTake.station = q.station ∧ q.analysisTake.profile = q.profile ∧
      q.analysisTake.manifold = q.manifold ∧ q.analysisTake.alerts = q.alerts ∧ q.analysisTake.tables = q.tables := by
    intro q; unfold Part.analysisTake; split <;> exact ⟨rfl, rfl, rfl, rfl, rfl⟩
  unfold Part.evaluationEnd
  split
  · exact ⟨fun _ => rfl, rfl, rfl, rfl, rfl⟩
  · dsimp only
    rw [(t _).1, (t _).2.1, (t _).2.2.1, (t _).2.2.2.1, (t _).2.2.2.2]
    split
    · exact ⟨fun _ => rfl, rfl, rfl, rfl, rfl⟩
    · refine ⟨fun i => ?_, rfl, rfl, rfl, rfl⟩
      simp only [Part.modCollector_station, Part.writeNoiseLines, Part.modStation_station, Part.modEngine_station]
      rw [Four.get_set]; split
      · next h => subst h; rfl
      · rfl

theorem Part.elapseWithin_elapsed (n : Nat) : ∀ (us : Nat) (p : Part),
    (p.port.up = true → p.port.lossTimer + us ≤ 1000 ∨ us ≤ 1000 - p.port.lossTimer) →
    Elapsed p (Part.elapseWithin n us p) us := by
  induction n with
  | zero => intro us p h; exact p.passTime_elapsed us
  | succ n ih =>
    intro us p h
    unfold Part.elapseWithin
    split
    · next d x hd =>
      split
      · next hlt =>
        have hx : x = .evaluation ∧ d ≤ us := by
          cases x
          · exact ⟨rfl, of_decide_eq_true hlt⟩
          · exfalso
            have hlt : d < us := of_decide_eq_true hlt
            unfold Part.nextDue at hd
            dsimp only at hd
            cases hu : p.port.up
            · simp [hu] at hd; cases hev : p.engine.evaluation <;> simp [hev] at hd
            · have := h hu
              simp only [hu] at hd
              cases hev : p.engine.evaluation <;> simp [hev] at hd
              · omega
              · split at hd <;> simp at hd; omega
        obtain ⟨rfl, hle⟩ := hx
        obtain ⟨e1, e2, e3, e4, e5⟩ := (p.passTime d).evaluationEnd_leaves
        have o : (p.passTime d).evaluationEnd.outer = (p.passTime d).outer := by simp
        have i := ih (us - d) (p.passTime d).evaluationEnd (by
          rw [Part.outer_port o]
          intro hu
          have hu' : p.port.up = true := hu
          have := h hu'
          simp only [Part.passTime, hu', if_true]; omega)
        have o1 := Part.outer_resetHeld o
        have o2 := Part.outer_router o
        have o3 := Part.outer_commands o
        have o4 := Part.outer_ringOut o
        refine ⟨i.held.trans o1, ?_, i.router.trans o2, i.commands.trans o3, i.ring.trans o4, ?_,
          fun k => (i.state k).trans (e1 k), i.profile.trans e2, i.manifold.trans e3, i.alerts.trans e4, i.tables.trans e5⟩
        · show (Part.elapseWithin n (us - d) (p.passTime d).evaluationEnd).port = _
          rw [i.port, Part.outer_port o]
          simp only [Part.passTime]
          split
          · simp; omega
          · rfl
        · show (Part.elapseWithin n (us - d) (p.passTime d).evaluationEnd).clock = _
          rw [i.clock, Part.outer_clock o]
          simp only [Part.passTime]; omega
      · exact p.passTime_elapsed us
    · exact p.passTime_elapsed us

/-- Time up to the loss of the ring. -/
theorem Part.elapse_elapsed {p : Part} {us : Nat} (h : p.resetHeld = false)
    (hl : p.port.up = true → p.port.lossTimer + us ≤ 1000 ∨ us ≤ 1000 - p.port.lossTimer) : Elapsed p (p.elapse us) us := by
  unfold Part.elapse
  rw [if_neg (by simp [h])]
  exact Part.elapseWithin_elapsed _ _ _ hl

/-- Time in which nothing falls due. -/
theorem Part.elapse_nothing {p : Part} {us : Nat} (h : p.resetHeld = false)
    (hl : p.port.up = true → p.port.lossTimer + us ≤ 1000) (he : ∀ e, p.engine.evaluation = some e → e.age + us < 1000) :
    p.elapse us = p.passTime us := by
  unfold Part.elapse
  rw [if_neg (by simp [h])]
  have key : ∀ n, Part.elapseWithin n us p = p.passTime us := by
    intro n
    cases n with
    | zero => rfl
    | succ n =>
      unfold Part.elapseWithin
      split
      · next d x hd =>
        rw [if_neg]
        unfold Part.nextDue at hd; dsimp only at hd
        cases hu : p.port.up <;> cases hev : p.engine.evaluation <;> simp [hu, hev] at hd
        · obtain ⟨rfl, rfl⟩ := hd; have := he _ hev; simp [Due.within]; omega
        · obtain ⟨rfl, rfl⟩ := hd; have := hl hu; simp [Due.within]; omega
        · have := hl hu; have := he _ hev
          split at hd <;> simp at hd <;> obtain ⟨rfl, rfl⟩ := hd <;> simp [Due.within] <;> omega
      · rfl
  exact key _

/-! ## A good CYCLE frame -/

theorem goodCycle_kind {f : Frame} (h : goodCycle f = true) : frameKind f = kindCycle := by
  simp only [goodCycle, Bool.and_eq_true, decide_eq_true_eq] at h; exact h.1.1.2

theorem Part.forward_outbound_cycle {p : Part} {f : Frame} (hk : frameKind f = kindCycle) (h : p.resetHeld = false) :
    p.forward .outbound f = { p with
      ringOut := p.ringOut ++ p.port.insertion.map (fun g => (Pass.outbound, g)) ++ [(.outbound, f)]
      port := { p.port with insertion := [] } } := by
  simp [Part.forward, endsPass, hk, h, Part.append, Part.emit]

/-- The part when a good CYCLE frame is taken: time has passed, and the insertion list and the frame are on the ring. -/
def Part.arrived (p : Part) (f : Frame) : Part :=
  { p with
    ringOut := p.ringOut ++ p.port.insertion.map (fun g => (Pass.outbound, g)) ++ [(.outbound, f)]
    port := { p.port with insertion := [] } }

/-- A good CYCLE frame on the outbound pass, in general. -/
theorem Part.cycleFrame_good {p q : Part} {f : Frame} {us : Nat} (orders : List (List Work)) (hl : p.listening = true)
    (hg : goodCycle f = true) (hq : p.elapse us = q) (hh : q.resetHeld = p.resetHeld) (ha : q.port.address = p.port.address) :
    p.cycleFrame .outbound f us orders = (q.arrived f).cycleArrives (cycleNumber f) orders := by
  have hr : q.resetHeld = false := hh.trans (Part.listening_released hl)
  have hl' : (q.arrived f).listening = true := by simp only [Part.listening, Part.arrived, hh, ha] at hl ⊢; exact hl
  unfold Part.cycleFrame
  rw [hq, Part.forward_outbound_cycle (goodCycle_kind hg) hr]
  dsimp only
  rw [if_pos]
  · rfl
  · simp only [hg, Bool.and_true, decide_true]; exact hl'

/-- A good CYCLE frame on the outbound pass while nothing falls due. -/
theorem Part.cycleFrame_calm {p : Part} {f : Frame} {us : Nat} (orders : List (List Work)) (hl : p.listening = true)
    (hg : goodCycle f = true) (h1 : p.port.up = true → p.port.lossTimer + us ≤ 1000)
    (he : ∀ e, p.engine.evaluation = some e → e.age + us < 1000) :
    p.cycleFrame .outbound f us orders = ((p.passTime us).arrived f).cycleArrives (cycleNumber f) orders :=
  Part.cycleFrame_good orders hl hg (Part.elapse_nothing (Part.listening_released hl) h1 he) rfl rfl

/-! ## The filling of the insertion list -/

/-- Sending touches the pending flags alone. -/
theorem Part.alertSent_eq (p : Part) : ∃ a, p.alertSent = { p with alerts := a } ∧ a.length = p.alerts.length ∧
    ∀ n, (a.getD n Alert.reset).detail = (p.alertAt n).detail ∧ (a.getD n Alert.reset).report = (p.alertAt n).report := by
  unfold Part.alertSent
  split
  · next n hn =>
    refine ⟨_, rfl, by simp, fun k => ?_⟩
    by_cases h : k = n
    · subst h
      by_cases hk : k < p.alerts.length <;> simp [Part.alertAt, hk]
    · simp only [Part.alertAt, List.getD_eq_getElem?_getD]
      rw [List.getElem?_set_ne (by omega)]; exact ⟨rfl, rfl⟩
  · exact ⟨_, rfl, rfl, fun _ => ⟨rfl, rfl⟩⟩

/-- What a filling changes. -/
theorem Part.fill_eq (p : Part) :
    p.fill = { p with
      alerts := p.alertSent.alerts
      manifold := { p.manifold with closingOwed := false }
      commands := { p.commands with reply := none }
      port := { p.port with insertion := p.insertionFrames } } := by
  obtain ⟨a, h, -⟩ := p.alertSent_eq
  unfold Part.fill; dsimp only; rw [h]; rfl

/-- With no command waiting nothing follows a filling. -/
theorem Part.fillAndTake_idle {p : Part} (h : p.commands.queue = []) : p.fillAndTake = p.fill := by
  unfold Part.fillAndTake
  split
  · unfold Part.takeNext
    rw [p.fill_eq]; dsimp only; rw [h]
  · rfl

end Sys2Proof.Machine
end

