-- ==== Sys2Proof/Laws/Store.lean ====
section
/-!
SUPPORT. Reads of a table slot after a write of one, and the numbers of slots that no write changes.
-/
namespace Sys2Proof.Machine

open Sys2Proof

@[simp] theorem Tables.setSlot_loading (t : Tables) (k : Kind) (n : Nat) (x : Slot) : (t.setSlot k n x).loading = t.loading := by
  cases k <;> rfl

theorem Tables.slots_setSlot_same (t : Tables) (k : Kind) (n : Nat) (x : Slot) :
    (t.setSlot k n x).slots k = (t.slots k).set n x := by cases k <;> rfl

theorem Tables.slots_setSlot_other (t : Tables) {k k' : Kind} (n : Nat) (x : Slot) (h : k' ≠ k) :
    (t.setSlot k n x).slots k' = t.slots k' := by
  cases k <;> cases k' <;> first | rfl | exact absurd rfl h

/-- The slot written reads as what was written. -/
theorem Tables.slot_setSlot_same (t : Tables) (k : Kind) (n : Nat) (x : Slot) (h : n < (t.slots k).length) :
    (t.setSlot k n x).slot k n = x := by
  unfold Tables.slot
  rw [Tables.slots_setSlot_same, List.getD_eq_getElem?_getD, List.getElem?_set_self h]
  rfl

/-- Every other slot reads as before. -/
theorem Tables.slot_setSlot_other (t : Tables) {k k' : Kind} {n n' : Nat} (x : Slot) (h : ¬(k' = k ∧ n' = n)) :
    (t.setSlot k n x).slot k' n' = t.slot k' n' := by
  unfold Tables.slot
  by_cases hk : k' = k
  · subst hk
    have hn : n ≠ n' := fun e => h ⟨rfl, e.symm⟩
    rw [Tables.slots_setSlot_same, List.getD_eq_getElem?_getD, List.getElem?_set_ne hn, ← List.getD_eq_getElem?_getD]
  · rw [Tables.slots_setSlot_other t n x hk]

/-- A slot read after a write. -/
theorem Tables.slot_setSlot (t : Tables) (k k' : Kind) (n n' : Nat) (x : Slot) (h : n < (t.slots k).length) :
    (t.setSlot k n x).slot k' n' = if k' = k ∧ n' = n then x else t.slot k' n' := by
  split
  · rename_i e; obtain ⟨rfl, rfl⟩ := e; exact t.slot_setSlot_same _ _ x h
  · rename_i e; exact t.slot_setSlot_other x e

@[simp] theorem Tables.slots_setSlot_length (t : Tables) (k k' : Kind) (n : Nat) (x : Slot) :
    ((t.setSlot k n x).slots k').length = (t.slots k').length := by
  cases k <;> cases k' <;> simp [Tables.setSlot, Tables.slots]

/-- The slot numbers of a kind lie within its slots. -/
theorem Part.Sized.slots {p : Part} (h : p.Sized) (k : Kind) : (p.tables.slots k).length = k.slots := by
  obtain ⟨-, a, b, c, d, e, f⟩ := h
  cases k <;> assumption

/-! ## References (R5, R6, R154) -/

/-- A slot outside the slots of its kind reads as EMPTY. -/
theorem Tables.slot_in_range {t : Tables} {k : Kind} {n : Nat} (h : (t.slot k n).state ≠ .empty) : n < (t.slots k).length := by
  by_cases l : n < (t.slots k).length
  · exact l
  · refine absurd ?_ h
    unfold Tables.slot
    rw [List.getD_eq_getElem?_getD, List.getElem?_eq_none (by omega)]
    rfl

/-- A slot with another reference count. -/
def Slot.counting (x : Slot) (n : Nat) : Slot := { x with references := n }

@[simp] theorem Slot.counting_state (x : Slot) (n : Nat) : (x.counting n).state = x.state := rfl
@[simp] theorem Slot.counting_references (x : Slot) (n : Nat) : (x.counting n).references = n := rfl
@[simp] theorem Slot.counting_counting (x : Slot) (m n : Nat) : (x.counting m).counting n = x.counting n := rfl
@[simp] theorem Slot.counting_same (x : Slot) : x.counting x.references = x := rfl
@[simp] theorem Slot.counting_fault (x : Slot) (n : Nat) (k : Kind) : (x.counting n).fault k = x.fault k := rfl

/-- How often a list of references names a slot. -/
def countSlot (refs : List (Option SlotRef)) (n : Nat) : Nat := refs.countP (fun r => r.any (fun x => x.slot == n))

/-- How often a binding names a slot: once, unless it is leak A and leak B at once (R2). -/
def Binding.mentions (b : Binding) (k : Kind) (n : Nat) : Nat := countSlot (b.refs k) n

/-- The slot that a reference names counts one more. -/
theorem Tables.addReference_slot (t : Tables) (k : Kind) (r : Option SlotRef) (k' : Kind) (n : Nat)
    (h : ∀ x ∈ r, (t.slot k x.slot).state ≠ .empty) :
    (t.addReference k r).slot k' n =
      (t.slot k' n).counting ((t.slot k' n).references + (if k' = k then countSlot [r] n else 0)) := by
  unfold Tables.addReference
  cases r with
  | none => simp [countSlot]
  | some x =>
    have l := Tables.slot_in_range (h x rfl)
    simp only [t.slot_setSlot k k' x.slot n _ l, countSlot, List.countP_cons, List.countP_nil, Option.any_some, beq_iff_eq]
    by_cases e : k' = k ∧ n = x.slot
    · obtain ⟨rfl, rfl⟩ := e; simp [Slot.counting]
    · rw [if_neg e]
      by_cases hk : k' = k
      · rw [if_pos hk, if_neg (fun a => e ⟨hk, a.symm⟩)]; simp
      · rw [if_neg hk]; simp

/-- The slot that a reference names counts one less. -/
theorem Part.dropReference_slot (p : Part) (k : Kind) (r : Option SlotRef) (k' : Kind) (n : Nat)
    (h : ∀ x ∈ r, (p.tables.slot k x.slot).state ≠ .empty) :
    (p.dropReference k r).tables.slot k' n =
      (p.tables.slot k' n).counting ((p.tables.slot k' n).references - (if k' = k then countSlot [r] n else 0)) := by
  unfold Part.dropReference
  cases r with
  | none => simp [countSlot]
  | some x =>
    have l := Tables.slot_in_range (h x rfl)
    simp only [Part.modTables_tables, p.tables.slot_setSlot k k' x.slot n _ l, countSlot, List.countP_cons, List.countP_nil,
      Option.any_some, beq_iff_eq]
    by_cases e : k' = k ∧ n = x.slot
    · obtain ⟨rfl, rfl⟩ := e; simp [Slot.counting]
    · rw [if_neg e]
      by_cases hk : k' = k
      · rw [if_pos hk, if_neg (fun a => e ⟨hk, a.symm⟩)]; simp
      · rw [if_neg hk]; simp

/-- A write of one slot keeps what it leaves of that slot in every slot. -/
theorem Tables.setSlot_keeps {α : Type} (f : Slot → α) (t : Tables) (k k' : Kind) (n n' : Nat) (x : Slot)
    (h : f x = f (t.slot k n)) : f ((t.setSlot k n x).slot k' n') = f (t.slot k' n') := by
  by_cases e : k' = k ∧ n' = n
  · obtain ⟨rfl, rfl⟩ := e
    by_cases l : n' < (t.slots k').length
    · rw [Tables.slot_setSlot_same _ _ _ _ l, h]
    · unfold Tables.slot; rw [Tables.slots_setSlot_same, List.set_eq_of_length_le (by omega)]
  · rw [t.slot_setSlot_other x e]

/-- A reference that is raised changes a reference count alone. -/
theorem Tables.addReference_counting (t : Tables) (k : Kind) (r : Option SlotRef) (k' : Kind) (n : Nat) :
    ((t.addReference k r).slot k' n).counting 0 = (t.slot k' n).counting 0 := by
  unfold Tables.addReference
  split
  · exact t.setSlot_keeps (fun x => x.counting 0) _ _ _ _ _ rfl
  · rfl

/-- A reference that is released changes a reference count alone. -/
theorem Part.dropReference_counting (p : Part) (k : Kind) (r : Option SlotRef) (k' : Kind) (n : Nat) :
    ((p.dropReference k r).tables.slot k' n).counting 0 = (p.tables.slot k' n).counting 0 := by
  unfold Part.dropReference
  split
  · exact p.tables.setSlot_keeps (fun x => x.counting 0) _ _ _ _ _ rfl
  · rfl

@[simp] theorem Tables.addReference_state (t : Tables) (k : Kind) (r : Option SlotRef) (k' : Kind) (n : Nat) :
    ((t.addReference k r).slot k' n).state = (t.slot k' n).state := by
  have h := congrArg Slot.state (t.addReference_counting k r k' n); exact h

@[simp] theorem Part.dropReference_state (p : Part) (k : Kind) (r : Option SlotRef) (k' : Kind) (n : Nat) :
    ((p.dropReference k r).tables.slot k' n).state = (p.tables.slot k' n).state := by
  have h := congrArg Slot.state (p.dropReference_counting k r k' n); exact h

/-- The references of an accepted START, slot by slot. -/
theorem Tables.addReferences_slot (t : Tables) (b : Binding) (k : Kind) (n : Nat)
    (h : ∀ k, ∀ r ∈ b.refs k, ∀ x ∈ r, (t.slot k x.slot).state ≠ .empty) :
    (t.addReferences b).slot k n = (t.slot k n).counting ((t.slot k n).references + b.mentions k n) := by
  unfold Tables.addReferences
  rw [Tables.addReference_slot, Tables.addReference_slot, Tables.addReference_slot, Tables.addReference_slot,
    Tables.addReference_slot]
  · cases k <;> simp [Binding.mentions, Binding.refs, countSlot, List.countP_cons, Nat.add_assoc, Nat.add_comm]
  all_goals intro x hx
  all_goals try simp only [Tables.addReference_state]
  · exact h .variant b.variant (by simp [Binding.refs]) x hx
  · exact h .profile b.profile (by simp [Binding.refs]) x hx
  · exact h .limit b.limit (by simp [Binding.refs]) x hx
  · exact h .leak b.leakA (by simp [Binding.refs]) x hx
  · exact h .leak b.leakB (by simp [Binding.refs]) x hx

/-- The references that a station releases, slot by slot (R6). -/
theorem Part.releaseTables_slot (p : Part) (st : Stn) (k : Kind) (n : Nat)
    (h : ∀ k, ∀ r ∈ (p.station.get st).binding.refs k, ∀ x ∈ r, (p.tables.slot k x.slot).state ≠ .empty) :
    (p.releaseTables st).tables.slot k n = (p.tables.slot k n).counting
      ((p.tables.slot k n).references - (p.station.get st).binding.mentions k n) := by
  unfold Part.releaseTables
  generalize (p.station.get st).binding = b at *
  dsimp only
  rw [Part.dropReference_slot, Part.dropReference_slot, Part.dropReference_slot, Part.dropReference_slot,
    Part.dropReference_slot]
  · cases k <;> simp [Binding.mentions, Binding.refs, countSlot, List.countP_cons, Nat.sub_sub, Nat.add_comm]
  all_goals intro x hx
  all_goals try simp only [Part.dropReference_state]
  · exact h .variant b.variant (by simp [Binding.refs]) x hx
  · exact h .profile b.profile (by simp [Binding.refs]) x hx
  · exact h .limit b.limit (by simp [Binding.refs]) x hx
  · exact h .leak b.leakA (by simp [Binding.refs]) x hx
  · exact h .leak b.leakB (by simp [Binding.refs]) x hx

/-- A binding that names no slot as both leaks names each slot at most once. -/
theorem Binding.mentions_eq (b : Binding) (k : Kind) (n : Nat)
    (h : ∀ x y, b.leakA = some x → b.leakB = some y → x.slot ≠ y.slot) :
    b.mentions k n = if b.names k n then 1 else 0 := by
  cases k <;> simp [Binding.mentions, Binding.refs, Binding.names, countSlot, List.countP_cons]
  cases ha : b.leakA <;> cases hb : b.leakB <;> simp
  have := h _ _ ha hb
  split <;> split <;> simp_all

end Sys2Proof.Machine
end

