-- ==== Sys2Proof/Laws/Tables.lean ====
section
/-!
SUPPORT. What the operations shared by the blocks do to the law of the table store (R154, R155, R158).
-/
namespace Sys2Proof.Machine

open Sys2Proof

theorem mem_allStations : ∀ st : Stn, st ∈ allStations := by decide
theorem Part.TableLaw.congr {p q : Part} (h : p.TableLaw) (ht : q.tables = p.tables) (ha : ∀ st, q.activeAt st = p.activeAt st)
    (hb : ∀ st, (q.station.get st).binding = (p.station.get st).binding) : q.TableLaw := by
  unfold Part.TableLaw Part.boundCount at *
  simpa only [ht, ha, hb] using h

/-- A READY slot for every slot that an active station's binding names. -/
theorem Part.TableLaw.bound {p : Part} (h : p.TableLaw) {st : Stn} (ha : p.activeAt st = true) (k : Kind) :
    ∀ r ∈ (p.station.get st).binding.refs k, ∀ x ∈ r, (p.tables.slot k x.slot).state = .ready := by
  intro r hr x hx
  refine h.2.1 k x.slot ?_
  rw [h.1 k x.slot]
  have hm : st ∈ allStations.filter (fun i => p.activeAt i && (p.station.get i).binding.names k x.slot) := by
    rw [List.mem_filter]
    refine ⟨mem_allStations st, ?_⟩
    rw [ha, Bool.true_and, Binding.names, List.any_eq_true]
    exact ⟨r, hr, by rw [Option.mem_def.1 hx]; simp⟩
  have := List.length_pos_of_mem hm
  unfold Part.boundCount; omega

/-- One station leaves or enters the active states: the count of the slots that it names. -/
theorem Part.boundCount_change {p q : Part} (st : Stn) (ha : p.activeAt st = true) (hq : q.activeAt st = false)
    (hb : ∀ i, i ≠ st → q.activeAt i = p.activeAt i ∧ (q.station.get i).binding = (p.station.get i).binding) (k : Kind) (n : Nat) :
    p.boundCount k n = q.boundCount k n + (if (p.station.get st).binding.names k n then 1 else 0) := by
  have key : ∀ (l : List Stn), l.Nodup → 
      (l.filter (fun i => p.activeAt i && (p.station.get i).binding.names k n)).length =
      (l.filter (fun i => q.activeAt i && (q.station.get i).binding.names k n)).length + (if st ∈ l ∧ (p.station.get st).binding.names k n then 1 else 0) := by
    intro l
    induction l with
    | nil => simp
    | cons a l ih =>
      intro nd
      rw [List.nodup_cons] at nd
      have ih := ih nd.2
      by_cases e : a = st
      · subst e
        rw [List.filter_cons, List.filter_cons, ha, hq]
        rw [if_neg (by simp [nd.1])] at ih
        simp only [Bool.true_and, Bool.false_and, Bool.false_eq_true, if_false, List.mem_cons, true_or, true_and]
        split <;> simp_all
      · rw [List.filter_cons, List.filter_cons, (hb a e).1, (hb a e).2]
        simp only [List.mem_cons, Ne.symm e, false_or]
        split
        · simp only [List.length_cons]; omega
        · exact ih
  have := key allStations (by decide)
  unfold Part.boundCount
  rw [this]
  simp [mem_allStations st]

theorem Part.TableLaw.endTest {p : Part} (h : p.TableLaw) (st : Stn) (kind : EndKind) (final : StationState)
    (ha : p.activeAt st = true) (hf : final.active = false) : (p.endTest st kind final).TableLaw := by
  have e := p.endTest_frame st kind final
  have same : ∀ k n, (p.endTest st kind final).tables.slot k n = ((p.tables.slot k n).counting
      ((p.tables.slot k n).references - (p.station.get st).binding.mentions k n)) := by
    intro k n
    have b := h.bound ha
    have w : (p.writeReport st kind).tables = p.tables := by
      unfold Part.writeReport Part.reportAlerts; dsimp only; split <;> split <;> rfl
    have wb : ((p.writeReport st kind).station.get st).binding = (p.station.get st).binding := by
      unfold Part.writeReport; dsimp only; rw [Part.reportAlerts_station]
      simp [Part.finishLines]
    show ((p.writeReport st kind).releaseTables st).tables.slot k n = _
    rw [Part.releaseTables_slot, w, wb]
    intro k r hr x hx
    rw [wb] at hr
    rw [w, b k r hr x hx]; decide
  have hl : (p.endTest st kind final).tables.loading = p.tables.loading := by
    have d : ∀ (r : Part) k x, (r.dropReference k x).tables.loading = r.tables.loading := by
      intro r k x; unfold Part.dropReference; split
      · simp
      · rfl
    show ((p.writeReport st kind).releaseTables st).tables.loading = _
    unfold Part.releaseTables
    dsimp only
    rw [d, d, d, d, d]
    unfold Part.writeReport Part.reportAlerts; dsimp only; split <;> split <;> rfl
  obtain ⟨h1, h2, h3, h4, h5⟩ := h
  have act : (p.endTest st kind final).activeAt st = false := by unfold Part.activeAt; rw [e.station]; exact hf
  have oth : ∀ i, i ≠ st → (p.endTest st kind final).activeAt i = p.activeAt i ∧ ((p.endTest st kind final).station.get i).binding = (p.station.get i).binding :=
    fun i hi => ⟨by unfold Part.activeAt; rw [(e.others i hi).1], by rw [(e.others i hi).1]⟩
  refine ⟨fun k n => ?_, fun k n => ?_, fun k n => ?_, fun k n => ?_, fun i a b hi => ?_⟩
  · rw [same, Slot.counting_references, h1, Binding.mentions_eq _ _ _ (h5 st · · ha), Part.boundCount_change st ha act oth]
    omega
  · rw [same]; intro x; exact h2 k n (by intro z; rw [Slot.counting_references, z] at x; simp at x)
  · rw [same, hl]; exact h3 k n
  · rw [same]; exact h4 k n
  · by_cases k : i = st
    · subst k; rw [act] at hi; cases hi
    · rw [(oth i k).2]; rw [(oth i k).1] at hi; exact h5 i a b hi

/-- The release of a station's references changes reference counts alone. -/
theorem Part.releaseTables_counting (p : Part) (st : Stn) (k : Kind) (n : Nat) :
    ((p.releaseTables st).tables.slot k n).counting 0 = (p.tables.slot k n).counting 0 := by
  unfold Part.releaseTables
  dsimp only
  rw [Part.dropReference_counting, Part.dropReference_counting, Part.dropReference_counting, Part.dropReference_counting,
    Part.dropReference_counting]

/-- The law after a change of slots that no active station names. -/
theorem Part.TableLaw.slots {p q : Part} (h : p.TableLaw) (ha : ∀ st, q.activeAt st = p.activeAt st)
    (hb : ∀ st, (q.station.get st).binding = (p.station.get st).binding)
    (hs : ∀ k n, q.tables.slot k n = p.tables.slot k n ∨ (p.tables.slot k n).references = 0 ∧
      (q.tables.slot k n).references = 0 ∧ ((q.tables.slot k n).state = .ready → (q.tables.slot k n).fault k = none))
    (hl : ∀ k n, q.tables.loading = some (k, n) ↔ (q.tables.slot k n).state = .loading) : q.TableLaw := by
  obtain ⟨h1, h2, -, h4, h5⟩ := h
  have hc : ∀ k n, q.boundCount k n = p.boundCount k n := fun k n => by simp only [Part.boundCount, ha, hb]
  refine ⟨fun k n => ?_, fun k n => ?_, hl, fun k n => ?_, fun st a b => ?_⟩
  · rw [hc, ← h1]
    rcases hs k n with e | ⟨e, e', -⟩
    · rw [e]
    · rw [e, e']
  · rcases hs k n with e | ⟨-, e, -⟩
    · rw [e]; exact h2 k n
    · intro x; exact absurd e x
  · rcases hs k n with e | ⟨-, -, e⟩
    · rw [e]; exact h4 k n
    · exact e
  · rw [ha, hb]; exact h5 st a b

/-- No active station names a slot when no station is active. -/
theorem Part.boundCount_zero {p : Part} (h : ∀ st, p.activeAt st = false) (k : Kind) (n : Nat) : p.boundCount k n = 0 := by
  simp [Part.boundCount, h]

end Sys2Proof.Machine
end

