-- ==== Sys2Proof/Tests/Slice0.lean ====
section
/-!
SUPPORT. Tests. First the worked examples and figures of spec/, then a term for each test of WellFormed that it refuses, then
for each statement of Certificates/Slice0/Obligations.lean that has hypotheses a concrete state and operands that meet them, for
each of its clauses.
-/
namespace Sys2Proof.Tests

open Sys2Proof Sys2Proof.Machine

-- One theorem after the other: `decide +kernel` waits for the whole text before it.
set_option Elab.async false

/-! ## Figures of the spec -/

/-- spec/00_scope.md, Arithmetic: the root 279 of 78,125. -/
theorem test_isqrt_example : isqrt 78125 = 279 := by decide +kernel

theorem test_isqrt_square : isqrt 0 = 0 ∧ isqrt 1 = 1 ∧ isqrt 3 = 1 ∧ isqrt 4 = 2 ∧ isqrt 99 = 9 ∧ isqrt 100 = 10 := by
  decide +kernel

/-- The catalogue value of the check word's parameters for the ASCII digits 1 to 9 (R26). -/
theorem test_checkWord : checkWord [0x31, 0x32, 0x33, 0x34, 0x35, 0x36, 0x37, 0x38, 0x39] = 0x29B1#16 := by decide +kernel

/-- R113: the quarters of the sine table. -/
theorem test_sine : sine 0 = 0 ∧ sine 64 = 32767 ∧ sine 128 = 0 ∧ sine 192 = -32767 ∧ sine 1 = 804 ∧ sine 255 = -804 ∧
    cosine 0 = 32767 ∧ cosine 64 = 0 := by decide +kernel

/-- spec/11, Worked example: line 11 of report 517 in segment 8. -/
theorem test_line_segment :
    (lineSegment { id := 11, family := .order, grade := .watch, outcome := .fail, reason := .none, evaluations := 2,
                   worst := 46, limit := 45, speedAtWorst := 1497, windowAtWorst := 1 }) =
      [11, 20, 0, 2, 0, 0, 0, 46, 0, 0, 0, 45, 0x05, 0xD9, 0x00, 0x01] := by decide +kernel

/-- R48: the position of an edge count before the mark is taken mod P. -/
theorem test_position : positionOf 2048 10 20 = 2038 ∧ binOf 2048 2038 = 254 ∧ positionOf 2048 20 10 = 10 := by decide +kernel

/-- R63: 1,000 rpm/s moves 51 units and leaves a remainder. -/
theorem test_move : (Executor.reset.move 1000 102400).setpoint = 51 ∧ (Executor.reset.move 1000 102400).remainder = 4000 := by
  decide +kernel

/-- spec/00_scope.md, Arithmetic: counts stop, numbers clamp. -/
theorem test_arithmetic : satSucc 255 255 = 255 ∧ satSucc 255 254 = 255 ∧ clampTo 30000 30001 = 30000 ∧
    clampTo 30000 (-30001) = -30000 ∧ clampTo 30000 (-30000) = -30000 := by decide +kernel

/-! ## Words of the commands (spec/11, 11.2) -/

theorem test_command_codes : codeStartAxle 3 31 = 0xFF ∧ codeStartAxle 0 0 = 0x80 ∧ codeLoadEntry 95 = 0x7F ∧
    startStation 0xFF = 3 ∧ startSlot 0xFF = 31 := by decide +kernel

/-- The table gives no row bits: no word spells a command (log entry 23). -/
theorem test_no_word : decodeTableWord 8 0x80 = none := by decide +kernel

/-! ## Ill-formed operands -/

theorem test_refuses_short_frame : (Instr.unusedFrame .returning [0x40]).wellFormed = false := by decide +kernel
theorem test_refuses_cycle_frame : (Instr.cycleFrame .outbound (mkFrame kindVib 0 1 5 []) 0 []).wellFormed = false := by
  decide +kernel
theorem test_refuses_order :
    (Instr.cycleFrame .outbound (mkFrame kindCycle 0 63 5 [0, 0, 0, 5]) 0 [[.purge]]).wellFormed = false := by decide +kernel
theorem test_refuses_halt_order : (Instr.ringLoss [1, 1]).wellFormed = false := by decide +kernel
theorem test_refuses_command_frame : (Instr.commandFrame .returning (mkFrame kindVib 0 1 5 [])).wellFormed = false := by
  decide +kernel
theorem test_refuses_used_frame : (Instr.unusedFrame .returning (mkFrame kindVib 9 1 5 [])).wellFormed = false ∧
    (Instr.unusedFrame .returning (mkFrame kindCycle 0 1 5 [])).wellFormed = false := by decide +kernel
theorem test_refuses_sample_frame : (Instr.sampleFrame .returning (mkFrame kindPress 9 1 5 [])).wellFormed = false := by
  decide +kernel
theorem test_refuses_press_frame : (Instr.pressFrame .returning (mkFrame kindVib 9 1 5 [])).wellFormed = false := by
  decide +kernel
theorem test_refuses_drive_frame : (Instr.driveFrame .returning (mkFrame kindVib 9 1 5 [])).wellFormed = false := by
  decide +kernel
theorem test_refuses_valve_frame : (Instr.valveStatusFrame .returning (mkFrame kindVib 9 1 5 []) []).wellFormed = false ∧
    (Instr.valveStatusFrame .returning (mkFrame kindValveStatus 9 1 5 []) [0, 0]).wellFormed = false := by decide +kernel
theorem test_refuses_owner : (Instr.signalLoss none .tach []).wellFormed = false ∧
    (Instr.signalLoss (some 0) .valve []).wellFormed = false := by decide +kernel
theorem test_refuses_serial : (Instr.startAxle 0 0 0 [1, 2, 3]).wellFormed = false := by decide +kernel
theorem test_refuses_content : (Instr.loadEntry 0 0 [1, 2, 3]).wellFormed = false := by decide +kernel
theorem test_refuses_known_code : (Instr.unknownCommand 0 0x0D).wellFormed = false ∧
    (Instr.unknownCommand 0 0x20).wellFormed = false := by decide +kernel

/-- Both hypotheses of `WellFormedCommandsComplete`. -/
theorem witness_WellFormedCommandsComplete :
    (Instr.unknownCommand 0 0x0E).wellFormed = true ∧ (Instr.unknownCommand 0 0x0D).wellFormed = false := by decide +kernel

/-! ## A small part -/

/-- Address 1, ring UP, cycle 5 open. -/
def part : Part :=
  { Part.powerOn 1 with
    port := { address := 1, up := true, cycle := some 5, lossTimer := 0, lossStart := 0, insertion := [] } }

/-- A state with no command waiting. -/
def state (p : Part) : State := { part := p, pending := [] }

/-- Sixteen bytes from the first few. -/
def entry (bs : List Byte) : Entry := padTo 16 bs

/-- A map: TACH, PRESS, DRIVE, VIB0 and TEMP of station 0 at 9 to 11, 13 and 14, and VALVE at 12. -/
def mapped : Part :=
  part.modRouter (fun _ => routerOf ([[9, 63, 0, 4], [10, 63, 0, 5], [11, 63, 0, 7], [12, 63, 4, 8], [13, 63, 0, 0],
    [14, 63, 0, 6]].map entry))

/-- Channel `k` of the map. -/
def channel (k : Nat) : Channel := (mapped.router.entries)[k]?.getD (freshChannel (mapEntryOf []))

/-- A frame of a kind from a source in cycle 5. -/
def frame (kind : Byte) (source : Addr) (payload : List Byte) : Frame := mkFrame kind source 1 5 payload

/-- Whether entry `k`, which is `c`, is the first that matches the source, reads the frame and has not been seen. -/
def claimed (r : Router) (x : Sample) (source : Addr) (k : Nat) (c : Channel) : Bool :=
  decide (r.entries[k]? = some c) && c.entry.matchesSource source && roleReads c.entry.role x && !c.seen
    && (r.entries.take k).all (fun d => !d.entry.matchesSource source)

theorem claims_of (r : Router) (x : Sample) (source : Addr) (k : Nat) (c : Channel) (h : claimed r x source k c = true) :
    r.Claims x source k c := by
  simp only [claimed, Bool.and_eq_true, decide_eq_true_eq, MapEntry.matchesSource, beq_iff_eq, Bool.not_eq_true',
    List.all_eq_true, beq_eq_false_iff_ne] at h
  refine ⟨h.1.1.1.1, h.1.1.1.2, h.1.1.2, h.1.2, fun j d hj hd => h.2 d ?_⟩
  rw [List.mem_iff_getElem?]
  exact ⟨j, by rw [List.getElem?_take, if_pos hj]; exact hd⟩

/-- A station in a state. -/
def inState (p : Part) (st : Stn) (x : StationState) : Part := p.modStation st (fun s => { s with state := x })

/-- A sequencer in a phase, as the manifold's law has it for FILL. -/
def inPhase (p : Part) (st : Stn) (x : Phase) : Part :=
  (p.modLeak st (fun s => { s with phase := x, which := some .a })).modManifold (fun m =>
    { m with
      holder := if x = .fill then some st else m.holder
      queue := if x = .queued then m.queue ++ [st] else m.queue
      deferred := if x = .ventWait then m.deferred ++ [(st, .vent)] else m.deferred })

/-- Station 0 runs a profile of these steps, its ladder being two entries. -/
def running (steps ladder : List Entry) : Part :=
  let table := entry [8, 0, b8 steps.length, if ladder.isEmpty then 0 else 1] :: steps ++ ladder
  let slot : Slot := { state := .ready, generation := 1, references := 1, entryCount := table.length, entries := table.map some }
  ((part.modTables (fun t => t.setSlot .profile 0 slot)).modStation 0 (fun x =>
    { x with state := .running, binding := { x.binding with profile := some { slot := 0, generation := 1 } } }))

/-- A row whose operands are well-formed is taken. -/
theorem completes (s : State) (i : Instr) (p : Part) (h : i.wellFormed = true) : ∃ t, s.take i p = .next t := ⟨_, if_pos h⟩

/-! ## Witnesses: the ring port and the frames -/

/-- A step with no command at all, and a frame in every position of `FramesForwarded`. -/
theorem witness_FramesForwarded : ∃ t, exec (.sampleFrame .returning (frame kindTach 9 [0, 100, 1, 0, 90])) (state mapped) = .next t := by
  show ∃ t, execSampleFrame _ _ _ = .next t
  exact completes _ _ _ (by decide +kernel)

theorem witness_ResetLineHeld :
    (state { part with resetHeld := true }).part.resetHeld = true ∧
    (Instr.sampleFrame .returning (frame kindTach 9 [])).wellFormed = true := by decide +kernel

/-- A good frame of a kind that the router reads, before the hypotheses of `FramesWithoutEffect` change one thing. -/
theorem witness_FramesWithoutEffect :
    let f := frame kindTach 9 [0, 100, 1, 0, 90]
    (Instr.sampleFrame .returning f).wellFormed = true ∧ part.resetHeld = false ∧ part.good .returning f = true ∧
    ({ part.port with address := 0 } : Port).address = 0 ∧ ({ part.port with address := 63 } : Port).address = 63 ∧
    frameSource (frame kindTach 1 []) = part.port.address ∧
    checkWord ((f.set 4 7).take 22) ≠ be16 (f.set 4 7) 22 ∧ (Instr.sampleFrame .returning (f.set 4 7)).wellFormed = true ∧
    (State.reset.part.port.up = false) ∧ frameTag (mkFrame kindTach 9 1 4 []) ≠ (5 : BitVec 32).setWidth 8 := by decide +kernel

/-- Unused frames: an unknown kind, a COMMAND for another address, and one not from the ring master. -/
theorem witness_FramesWithoutEffect_unused :
    (Instr.unusedFrame .returning (frame 0x40 9 [])).wellFormed = true ∧ frameKind (frame 0x40 9 []) ≠ kindCommand ∧
    (Instr.unusedFrame .returning (mkFrame kindCommand 0 2 5 [])).wellFormed = true ∧
    frameDest (mkFrame kindCommand 0 2 5 []) ≠ part.port.address ∧
    (Instr.commandFrame .returning (frame kindCommand 9 [])).wellFormed = true ∧ frameSource (frame kindCommand 9 []) ≠ 0 := by
  decide +kernel

theorem witness_SampleTaken :
    let f := frame kindVib 13 [0xFF, 0xFE]
    (Instr.sampleFrame .returning f).wellFormed = true ∧ mapped.good .returning f = true ∧
    sampleOf f = some (.vib 0xFFFE#16 false) := by decide +kernel

theorem witness_SampleTaken_claims :
    mapped.router.Claims (.vib 0xFFFE#16 false) (frameSource (frame kindVib 13 [])) 4 (channel 4) :=
  claims_of _ _ _ _ _ (by decide +kernel)

/-- Frames that no entry claims, that the claiming entry does not read, and that come to an entry already seen. -/
theorem witness_SampleTaken_dropped :
    let f := frame kindVib 20 [0xFF, 0xFE]
    let g := frame kindVib 9 [0xFF, 0xFE]
    let seen := mapped.modRouter (fun r => (r.take (.tach 100#16 1#8 90#16) 9).1)
    (Instr.sampleFrame .returning f).wellFormed = true ∧ mapped.good .returning f = true ∧
    (∀ c ∈ mapped.router.entries, (frameSource f &&& c.entry.mask) ≠ c.entry.base) ∧
    sampleOf g = some (.vib 0xFFFE#16 false) ∧ (frameSource g &&& (channel 0).entry.mask) = (channel 0).entry.base ∧
    mapped.router.entries[0]? = some (channel 0) ∧ roleReads (channel 0).entry.role (.vib 0xFFFE#16 false) = false ∧
    seen.good .returning (frame kindTach 9 [0, 100]) = true ∧ (seen.router.entries[0]?.map Channel.seen) = some true := by
  decide +kernel

/-- Station 0 fills with leak A; the frame carries exactly the target, and the default purge time is not 0. -/
def filling : Part := (inPhase mapped 0 .fill).modLeak 0 (fun x => { x with copy := { x.copy with target := 1000 } })

theorem witness_PressEndsFill :
    let f := frame kindPress 10 [0, 0x03, 0xE8, 0]
    (Instr.pressFrame .returning f).wellFormed = true ∧ filling.good .returning f = true ∧
    sampleOf f = some (.press 1000#24 false) ∧ (channel 1).entry.owner = some 0 ∧ filling.AirLaw ∧
    (filling.leak.get 0).phase = .fill ∧ (filling.leak.get 0).copy.target ≤ (1000#24).toNat ∧
    (filling.leak.get 0).which = some .a ∧ filling.cell.purge ≠ 0 := by
  unfold Part.AirLaw
  decide +kernel

theorem witness_PressEndsFill_claims :
    filling.router.Claims (.press 1000#24 false) (frameSource (frame kindPress 10 [])) 1 (channel 1) ∧
    (inPhase filling 0 .settle).router.Claims (.press 1000#24 false) (frameSource (frame kindPress 10 [])) 1 (channel 1) ∧
    filling.router.Claims (.press 1000#24 true) (frameSource (frame kindPress 10 [])) 1 (channel 1) ∧
    filling.router.Claims (.press 999#24 false) (frameSource (frame kindPress 10 [])) 1 (channel 1) := by
  refine ⟨?_, ?_, ?_, ?_⟩ <;> exact claims_of _ _ _ _ _ (by decide +kernel)

/-- Frames that end no fill: faulted at the target, one below it, and the target in SETTLE. -/
theorem witness_PressEndsFill_only_recorded :
    sampleOf (frame kindPress 10 [0, 0x03, 0xE8, 1]) = some (.press 1000#24 true) ∧
    sampleOf (frame kindPress 10 [0, 0x03, 0xE7, 0]) = some (.press 999#24 false) ∧
    (999#24).toNat < (filling.leak.get 0).copy.target ∧
    filling.good .returning (frame kindPress 10 [0, 0x03, 0xE8, 1]) = true ∧
    filling.good .returning (frame kindPress 10 [0, 0x03, 0xE7, 0]) = true ∧
    ((inPhase filling 0 .settle).leak.get 0).phase ≠ .fill ∧
    (inPhase filling 0 .settle).good .returning (frame kindPress 10 [0, 0x03, 0xE8, 0]) = true := by decide +kernel

/-- A CELL table of ceiling 100, no purge time and a wait limit of 1 ms. -/
def withoutPurge (p : Part) : Part :=
  p.modTables (fun t => t.setSlot .cell 0
    { state := .ready, generation := 1, references := 0, entryCount := 3,
      entries := [some (entry [0, 100, 0, 100, 0, 0, 0, 0, 0, 1, 0]), some (entry []), some (entry [])] })

theorem witness_PressEndsFill_without_purge :
    (withoutPurge filling).cell.purge = 0 ∧ (withoutPurge filling).AirLaw ∧
    ((withoutPurge filling).leak.get 0).phase = .fill := by
  unfold Part.AirLaw
  decide +kernel

theorem witness_DriveFrames :
    let f := frame kindDrive 11 [0, 100, 2]
    let p := inState mapped 0 .running
    (Instr.driveFrame .returning f).wellFormed = true ∧ p.good .returning f = true ∧
    sampleOf f = some (.drive 100#16 false true) ∧ (channel 2).entry.owner = some 0 ∧ p.activeAt 0 = true ∧ p.AirLaw ∧
    p.Sized ∧ mapped.activeAt 0 = false ∧ sampleOf (frame kindDrive 11 [0, 100, 1]) = some (.drive 100#16 true false) := by
  unfold Part.AirLaw Part.Sized
  decide +kernel

theorem witness_DriveFrames_claims :
    (inState mapped 0 .running).router.Claims (.drive 100#16 false true) (frameSource (frame kindDrive 11 [])) 2 (channel 2) ∧
    mapped.router.Claims (.drive 100#16 true false) (frameSource (frame kindDrive 11 [])) 2 (channel 2) := by
  refine ⟨?_, ?_⟩ <;> exact claims_of _ _ _ _ _ (by decide +kernel)

theorem witness_ValveStatusFrames :
    let f := frame kindValveStatus 12 [1]
    let p := inState filling 0 .running
    (Instr.valveStatusFrame .returning f [2, 0]).wellFormed = true ∧ p.good .returning f = true ∧
    sampleOf f = some (.valve true false) ∧ (channel 3).entry.owner = none ∧ p.activeAt 0 = true ∧
    (p.leak.get 0).phase = .fill ∧ p.activeAt 1 = false ∧
    sampleOf (frame kindValveStatus 12 [0]) = some (.valve false false) := by decide +kernel

theorem witness_ValveStatusFrames_claims :
    (inState filling 0 .running).router.Claims (.valve true false) (frameSource (frame kindValveStatus 12 [])) 3 (channel 3) ∧
    (inState filling 0 .running).router.Claims (.valve false false) (frameSource (frame kindValveStatus 12 [])) 3 (channel 3) := by
  refine ⟨?_, ?_⟩ <;> exact claims_of _ _ _ _ _ (by decide +kernel)

/-- Every role of the map has been missing for so many cycles. -/
def missing (n : Nat) : Part := mapped.modRouter (fun r => { r with roles := r.roles.map (fun k => { k with missing := n }) })

theorem witness_SignalLossHalts :
    let p := (missing 2000).modStation 0 (fun x => { x with state := .prep, required := [.tach, .drive] })
    (Instr.signalLoss (some 0) .tach [3]).wellFormed = true ∧ p.online = true ∧
    ((p.roleRecord (some 0) .tach).map RoleRecord.missing) = some 2000 ∧ p.activeAt 0 = true ∧
    some 0 = roleOwner 0 .tach ∧ Role.tach ∈ (p.station.get 0).required ∧ p.activeAt 1 = false ∧
    (((missing 1999).roleRecord (some 0) .tach).map RoleRecord.missing) = some 1999 := by decide +kernel

/-- A PART_RESET frame for the AT4. -/
def command : Frame := mkFrame kindCommand 0 1 5 [0x0D, 7, 1]

/-- A part whose command unit holds this many commands and a reply or none. -/
def queued (p : Part) (n : Nat) (waits : Bool) : Part :=
  p.modCommands (fun _ =>
    { queue := List.replicate n { code := 1, tag := 2, args := entry [] }
      reply := if waits then some (plainReply 1 2 .ok []) else none })

theorem witness_CommandArrival :
    (Instr.commandFrame .returning command).wellFormed = true ∧ frameDest command = part.port.address ∧
    frameSource command = 0 ∧ part.good .returning command = true ∧ part.commands.queue = [] ∧ part.commands.reply = none ∧
    (queued part 0 true).good .returning command = true ∧ (queued part 0 true).commands.reply ≠ none ∧
    (queued part 1 true).commands.queue.length = 1 ∧ (queued part 3 true).commands.queue.length = 3 ∧
    (queued part 4 true).good .returning command = true ∧ (queued part 4 true).commands.queue.length = 4 := by decide +kernel

/-! ## Witnesses: ring cycles -/

/-- A CYCLE frame of a number below 256. -/
def cycleFrame (n : Byte) : Frame := mkFrame kindCycle 0 63 n [0, 0, 0, n]

/-- Whether a frame closes cycle 5 of a part and no other, `us` microseconds on. -/
def closesOn (p : Part) (f : Frame) (us : Nat) : Bool :=
  (Instr.cycleFrame .outbound f us []).wellFormed && p.listening && goodCycle f && p.port.up
    && decide (p.port.cycle = some 5) && decide (p.port.lossTimer + us ≤ 1000)
    && p.engine.evaluation.all (fun e => decide (e.age + us < 1000)) && p.commands.queue.isEmpty
    && decide (cycleNumber f = 6)

/-- The hypothesis of the statements about one close. -/
theorem closes_of (p : Part) (f : Frame) (us : Nat) (h : closesOn p f us = true) : (state p).Closes f us [] 5 := by
  simp only [closesOn, Bool.and_eq_true, decide_eq_true_eq, Option.all_eq_true, List.isEmpty_iff] at h
  exact ⟨⟨h.1.1.1.1.1.1.1.1, h.1.1.1.1.1.1.1.2, h.1.1.1.1.1.1.2, h.1.1.1.1.1.2, h.1.1.1.1.2, h.1.1.1.2, h.1.1.2, h.1.2⟩, h.2⟩

/-- SIGNAL_LOSS by the missing count alone: a required role at 1,999 that no entry delivers. -/
def oneShort : Part :=
  (missing 1999).modStation 0 (fun x => { x with state := .running, required := [.tach, .drive] })

theorem witness_SignalLossHalts_close : (state oneShort).Closes (cycleFrame 6) 50 [] 5 := closes_of _ _ _ (by decide +kernel)

theorem witness_SignalLossHalts_count :
    (oneShort.station.get 0).state = .running ∧ Role.tach ∈ (oneShort.station.get 0).required ∧
    ((oneShort.roleAt 0 .tach).map RoleRecord.missing) = some 1999 ∧
    serving (some 0) .tach oneShort.router.entries = none ∧
    (oneShort.router.roles.map RoleRecord.silent) = List.replicate 6 false := by decide +kernel

/-- What that close does. -/
theorem test_signal_loss_at_close :
    let q := (oneShort.cycleFrame .outbound (cycleFrame 6) 50 []).station.get 0
    q.state = .halted ∧ q.haltReason = .signalLoss := by decide +kernel

/-- The hypotheses of `AppendedFramesSound`: a station that is not IDLE, an open valve, a waiting reply and a pending alert, with
the ring UP; the ring LOST; and the first frame after POWER_ON. -/
theorem witness_AppendedFramesSound :
    let p := ((queued (inState filling 0 .halted) 0 true).raise .cmdOverflow 0 0)
    (Instr.cycleFrame .outbound (cycleFrame 6) 50 []).wellFormed = true ∧ p.listening = true ∧ goodCycle (cycleFrame 6) = true ∧
    p.commands.queue = [] ∧ p.port.up = true ∧ p.port.lossTimer + 50 ≤ 1000 ∧ p.port.cycle ≠ none ∧
    p.port.cycle ≠ some (cycleNumber (cycleFrame 6)) ∧ p.commands.reply ≠ none ∧ (p.alertAt 21).pending = true ∧
    p.cell.maskLevel ≤ p.cell.priorities.getD 21 0 ∧ State.reset.part.port.up = false ∧
    State.reset.part.listening = true ∧ (1 : Addr) ≠ 0 ∧ (62 : Addr) ≠ 63 := by decide +kernel

/-- The evaluation that a loss marked may outlast the restore, or end at it. -/
theorem witness_CycleRepeatedOrRestored_marked :
    let p (age : Nat) := State.reset.part.modEngine (fun _ =>
      { queue := [], evaluation := some { station := 0, number := 1, speed := 0, discard := true, age := age } })
    (p 949).listening = true ∧ (p 949).port.up = false ∧ ((p 949).engine.evaluation.map Evaluation.age) = some 949 ∧
    949 + 50 < 1000 ∧ 1000 ≤ 950 + 50 ∧ (p 950).engine.queue = [] ∧ (p 950).commands.queue = [] ∧
    ((p 950).engine.evaluation.map Evaluation.discard) = some true := by decide +kernel

theorem witness_CycleRepeatedOrRestored :
    (Instr.cycleFrame .outbound (cycleFrame 5) 50 []).wellFormed = true ∧ part.listening = true ∧
    goodCycle (cycleFrame 5) = true ∧ part.port.up = true ∧ part.port.cycle = some (cycleNumber (cycleFrame 5)) ∧
    part.port.lossTimer + 1000 ≤ 1000 ∧ part.engine.evaluation = none ∧
    State.reset.part.listening = true ∧ State.reset.part.port.up = false ∧ State.reset.part.engine.evaluation = none ∧
    State.reset.part.commands.queue = [] ∧ State.reset.part.Sized := by
  unfold Part.Sized
  decide +kernel

/-- The differences 1, 20 and 21, the number's wrap, and a role with and without a serving frame. -/
theorem witness_CycleClosesFormRoles :
    (Instr.cycleFrame .outbound (cycleFrame 6) 50 []).wellFormed = true ∧ mapped.listening = true ∧
    goodCycle (cycleFrame 6) = true ∧ mapped.port.up = true ∧ mapped.port.cycle = some 5 ∧
    mapped.port.lossTimer + 50 ≤ 1000 ∧ mapped.engine.evaluation = none ∧ mapped.commands.queue = [] ∧
    cycleNumber (cycleFrame 6) ≠ 5 ∧ closesFor (cycleNumber (cycleFrame 6) - 5).toNat = 1 ∧
    closesFor (cycleNumber (cycleFrame 25) - 5).toNat = 20 ∧ closesFor (cycleNumber (cycleFrame 26) - 5).toNat = 1 ∧
    closesFor (cycleNumber (cycleFrame 4) - 5).toNat = 1 ∧ serving (some 0) .tach mapped.router.entries = none ∧
    serving (some 0) .tach
      (mapped.router.take (.tach 100#16 1#8 90#16) 9).1.entries = some (.tach 100#16 1#8 90#16) := by decide +kernel

theorem witness_SetpointFrames :
    (∃ t, exec (.cycleFrame .outbound (cycleFrame 6) 50 []) (state (inState mapped 0 .halted)) = .next t) ∧
    (inState mapped 0 .halted).listening = true ∧ (inState mapped 0 .halted).port.up = true ∧
    (inState mapped 0 .halted).commands.queue = [] ∧ (inState mapped 0 .halted).port.lossTimer + 50 ≤ 1000 ∧
    (inState mapped 0 .halted).port.cycle ≠ some (cycleNumber (cycleFrame 6)) ∧ (inState mapped 0 .halted).port.cycle ≠ none :=
  ⟨by show ∃ t, execCycleFrame _ _ _ _ _ = .next t; exact completes _ _ _ (by decide +kernel), by decide +kernel⟩

theorem witness_RingLossHalts :
    (Instr.ringLoss [3, 1]).wellFormed = true ∧ (inState part 1 .prep).resetHeld = false ∧
    (inState part 1 .prep).port.up = true ∧ (inState part 1 .prep).activeAt 1 = true ∧
    (inState part 1 .prep).activeAt 0 = false := by decide +kernel

/-! ## Witnesses: halts and ends -/

/-- Station 0 runs with a tracker whose counts stand at their limits. -/
def spinning : Part :=
  (inState part 0 .running).modTracker 0 (fun t =>
    { t with tracking := true, p := 2048, indexTimer := 40000, stillGates := 100, gateCount := 200, gateSum := 4000000 })

theorem witness_StationHalts :
    spinning.online = true ∧ spinning.AirLaw ∧ spinning.Sized ∧ spinning.activeAt 0 = true ∧
    (spinning.tracker.get 0).tracking = true ∧ 40000 ≤ (spinning.tracker.get 0).indexTimer ∧
    100 ≤ (spinning.tracker.get 0).stillGates ∧ 200 ≤ (spinning.tracker.get 0).gateCount ∧
    spinning.cell.ceiling + spinning.cell.ceiling / 8 <
      (clampTo 30000 (((spinning.tracker.get 0).gateSum * 6000).tdiv ((spinning.tracker.get 0).p : Int))).natAbs := by
  unfold Part.AirLaw Part.Sized
  decide +kernel

theorem witness_StationHalts_prep :
    let p := (inState part 0 .prep).modStation 0 (fun x => { x with prepTimer := 2000, required := [.tach], live := [19] })
    (p.station.get 0).state = .prep ∧ 2000 ≤ (p.station.get 0).prepTimer ∧ p.prepReady 0 = false ∧ p.online = true ∧
    p.AirLaw ∧ p.Sized := by
  unfold Part.AirLaw Part.Sized
  decide +kernel

theorem witness_SpeedGateMeasures :
    let p := spinning.modTracker 0 (fun t => { t with gateSum := -341 })
    p.online = true ∧ (p.tracker.get 0).tracking = true ∧ 200 ≤ (p.tracker.get 0).gateCount ∧
    (clampTo 30000 (((p.tracker.get 0).gateSum * 6000).tdiv ((p.tracker.get 0).p : Int))) = -999 ∧
    (clampTo 30000 (((p.tracker.get 0).gateSum * 6000).tdiv ((p.tracker.get 0).p : Int))).natAbs ≤
      p.cell.ceiling + p.cell.ceiling / 8 := by decide +kernel

/-- A tracker at its first reading, or with a reference and a gate count; the TACH entry holds a frame or none. -/
def reading (reference : Option (BitVec 16 × BitVec 8)) (count : Nat) (delivered : Bool) : Part :=
  let p := (inState mapped 0 .running).modTracker 0 (fun t =>
    { t with tracking := true, p := 2048, reference := reference, gateCount := count })
  if delivered then p.modRouter (fun r => (r.take (.tach 100#16 1#8 90#16) 9).1) else p

theorem witness_SpeedGateMeasures_close :
    (state (reading none 198 true)).Closes (cycleFrame 6) 50 [] 5 ∧
    (state (reading (some (90, 1)) 199 false)).Closes (cycleFrame 6) 50 [] 5 :=
  ⟨closes_of _ _ _ (by decide +kernel), closes_of _ _ _ (by decide +kernel)⟩

theorem witness_SpeedGateMeasures_reading :
    let p := reading (some (90, 0)) 199 true
    ((p.tracker.get 0).tracking = true ∧ (p.roleAt 0 .tach).isSome = true ∧ (p.tracker.get 0).gateCount = 199 ∧
      serving (some 0) .tach p.router.entries = some (.tach 100#16 1#8 90#16)) ∧
    (p.tracker.get 0).changeTo 100 = 10 ∧ (p.tracker.get 0).marksTo 1 = 1 ∧
    ((reading none 198 true).tracker.get 0).changeTo 100 = 0 ∧
    serving (some 0) .tach (reading none 0 false).router.entries = none ∧
    ((reading none 198 true).cycleFrame .outbound (cycleFrame 6) 50 []).activeAt 0 = true := by decide +kernel

/-- DRIVE delivered with its ready flag, live runs of 20. -/
def ready : Part :=
  ((mapped.modRouter (fun r => { r with roles := r.roles.map (fun k =>
      if k.role = .drive then { k with value := .drive 0 true false, mark := .present } else k) })).modStation 0 (fun x =>
    { x with state := .prep, required := [.tach, .drive], live := [20, 20] }))

theorem witness_PrepToRunning :
    ready.online = true ∧ (ready.station.get 0).state = .prep ∧ (∀ n ∈ (ready.station.get 0).live, n = 20) ∧
    ((ready.roleRecord (some 0) .drive).map (fun r => (decide (r.mark ≠ .missing), r.value.driveReady))) =
      some (true, true) := by decide +kernel

/-- A close in PREP: every role delivered and its live run one short of 20, or one role silent with the timer at 1,999. -/
def preparing (deliver : Bool) : Part :=
  let p := (mapped.modRouter (fun r => (r.take (.drive 0 true false) 11).1)).modStation 0 (fun x =>
    { x with state := .prep, required := [.tach, .drive], live := [19, 19], prepTimer := 1999 })
  if deliver then p.modRouter (fun r => (r.take (.tach 100#16 1#8 90#16) 9).1) else p

theorem witness_PrepToRunning_close :
    (state (preparing true)).Closes (cycleFrame 6) 50 [] 5 ∧ (state (preparing false)).Closes (cycleFrame 6) 50 [] 5 :=
  ⟨closes_of _ _ _ (by decide +kernel), closes_of _ _ _ (by decide +kernel)⟩

theorem witness_PrepToRunning_cases :
    let p := preparing true
    let after (d : Bool) := ((preparing d).cycleFrame .outbound (cycleFrame 6) 50 []).station.get 0
    (p.station.get 0).state = .prep ∧
    (∀ role ∈ .drive :: (p.station.get 0).required, p.roleAt 0 role ≠ none) ∧
    ((after true).state, (after false).state, (after false).haltReason) = (.running, .halted, .noSignal) := by decide +kernel

/-- A station at rest: setpoint 0, measured speed 4. -/
def resting (x : StationState) : Part := (inState part 0 x).modTracker 0 (fun t => { t with tracking := true, speed := some (-4) })

theorem witness_TestEnds :
    (resting .finishing).online = true ∧ (resting .finishing).Sized ∧ ((resting .finishing).profile.get 0).setpoint = 0 ∧
    ((resting .finishing).tracker.get 0).speed = some (-4) ∧ ((resting .finishing).leak.get 0).phase = .idle ∧
    ((resting .finishing).collector.get 0).state ≠ .evaluating ∧
    ((resting .finishing).station.get 0).state = .finishing ∧ ((resting .stopping).station.get 0).state = .stopping ∧
    (resting .stopping).online = true := by
  unfold Part.Sized
  decide +kernel

/-! ## Witnesses: run-in profiles -/

/-- HOLD of 1 ms with torque limit 50 and a check of line 3 from -100 to 100. -/
def holdStep : Entry := entry [2, 0, 1, 0, 0, 0, 50, 1, 3, 0, 0xFF, 0x9C, 0, 100]

/-- The check of `holdStep`. -/
def holdCheck : TorqueCheck := { id := 3, grade := .must, minimum := -100, maximum := 100 }

def holding : Part := (running [holdStep, entry [11]] []).modProfile 0 (fun e =>
  { e with stepTimer := 20, torqueSum := -201, torqueCount := 2 })

theorem witness_HoldEnds :
    holding.online = true ∧ (holding.station.get 0).state = .running ∧
    holding.currentStep 0 = some (.hold 1 50 (some holdCheck)) ∧ 20 * 1 ≤ (holding.profile.get 0).stepTimer ∧
    (holding.profile.get 0).torqueCount ≠ 0 := by decide +kernel

/-- The same HOLD with no torque summed. -/
theorem witness_HoldEnds_no_torque :
    let p := holding.modProfile 0 (fun e => { e with torqueSum := 0, torqueCount := 0 })
    p.online = true ∧ (p.station.get 0).state = .running ∧ p.currentStep 0 = some (.hold 1 50 (some holdCheck)) ∧
    20 * 1 ≤ (p.profile.get 0).stepTimer ∧ (p.profile.get 0).torqueCount = 0 := by decide +kernel

/-- LADDER from rung 15 up at 100 rpm/s, wrapping, with dwell 1 ms and measurement. -/
def ladderStep (moves wrap : Byte) : Entry := entry [3, 15, 0, 0, 100, 0, 50, moves, wrap, 0, 1, 1, 2]

/-- Two entries of rungs. -/
def rungs : List Entry := [entry [0, 100, 0, 200], entry [0xFF, 0x9C]]

def climbing (moves wrap : Byte) (left : Nat) (phase : RungPhase) : Part :=
  ((running [ladderStep moves wrap, entry [11]] rungs).modProfile 0 (fun e =>
    { e with movesLeft := left, rung := 15, rungPhase := phase, dwellCount := 20 })).modCollector 0 (fun c =>
    { c with report := .exhausted })

theorem witness_StepsEnd :
    (climbing 2 1 0 .dwell).online = true ∧ ((climbing 2 1 0 .dwell).station.get 0).state = .running ∧
    (climbing 2 1 0 .dwell).currentStep 0 = some (.ladder 15 true 100 50 2 true 1 true 2) ∧
    ((climbing 2 1 0 .dwell).profile.get 0).movesLeft = 0 ∧ ((climbing 2 1 0 .dwell).profile.get 0).rungPhase = .dwell ∧
    20 * 1 ≤ ((climbing 2 1 0 .dwell).profile.get 0).dwellCount ∧
    ((climbing 2 1 0 .measure).profile.get 0).rungPhase = .measure ∧
    ((climbing 2 1 0 .measure).collector.get 0).report ≠ .none := by decide +kernel

theorem witness_StepsEnd_others :
    let noise := (running [entry [4, 2, 1, 0, 0, 0, 50, 0, 0, 0, 5]] []).modCollector 0 (fun c => { c with report := .done })
    let wait := (running [entry [5, 1, 0]] []).modProfile 0 (fun e => { e with leakStarted := true })
    let hold := (running [entry [2, 0, 1, 0, 0, 0, 50]] []).modProfile 0 (fun e => { e with stepTimer := 20 })
    noise.currentStep 0 = some (.noise 2 1 false 50 5) ∧ (noise.collector.get 0).report ≠ .none ∧
    wait.currentStep 0 = some (.leak .b false) ∧ (wait.profile.get 0).leakStarted = true ∧ (wait.leak.get 0).phase = .idle ∧
    (running [entry [6]] []).currentStep 0 = some .waitLeak ∧
    hold.currentStep 0 = some (.hold 1 50 none) ∧ 20 * 1 ≤ (hold.profile.get 0).stepTimer ∧ noise.online = true := by
  decide +kernel

/-- A rung with moves left at a boundary in STOP mode, up at 15. -/
theorem witness_StepsEnd_boundary :
    let p := climbing 2 0 2 .dwell
    p.currentStep 0 = some (.ladder 15 true 100 50 2 false 1 true 2) ∧ (p.profile.get 0).movesLeft ≠ 0 ∧
    15 ≤ (p.profile.get 0).rung ∧ 20 * 1 ≤ (p.profile.get 0).dwellCount ∧ p.online = true := by decide +kernel

/-- A profile of control steps at one of them, with a loop frame and a check line of this outcome. -/
def controlled (step : Nat) (remaining : Nat) (outcome : LineOutcome) : Part :=
  let line : CheckLine := { id := 1, family := .torque, grade := .must, outcome := outcome, reason := .none, evaluations := 1,
                            worst := 0, limit := 0, speedAtWorst := 0, windowAtWorst := 0 }
  ((running [entry [7, 0], entry [7, 2], entry [9], entry [8], entry [8], entry [10], entry [11]] []).modProfile 0 (fun e =>
    { e with step := step, loops := [{ firstBody := 2, endIndex := 3, remaining := remaining }] })).modStation 0 (fun x =>
    { x with lines := [line] })

theorem witness_StepsEnd_close (step : Nat) (remaining : Nat) (outcome : LineOutcome) :
    (state (controlled step remaining outcome)).Closes (cycleFrame 6) 50 [] 5 :=
  closes_of _ _ _ (show closesOn part (cycleFrame 6) 50 = true by decide +kernel)

/-- The loops of that profile: step 4 closes step 0, step 3 closes step 1. -/
theorem witness_StepsEnd_loops :
    let t := (controlled 0 1 .pass).profileTable 0
    Encloses t 0 4 ∧ Encloses t 1 3 :=
  ⟨⟨by decide, by decide, by decide +kernel, by decide +kernel, fun m h1 h2 => by
      have : m = 1 ∨ m = 2 ∨ m = 3 := by omega
      rcases this with rfl | rfl | rfl <;> decide +kernel⟩,
    ⟨by decide, by decide, by decide +kernel, by decide +kernel, fun m h1 h2 => by
      have : m = 2 := by omega
      subst this
      decide +kernel⟩⟩

theorem witness_StepsEnd_control :
    let at_ (i : Nat) := (controlled i 1 .fail).currentStep 0
    [at_ 0, at_ 1, at_ 2, at_ 3, at_ 5, at_ 6] =
      [some (.repeatLoop 0), some (.repeatLoop 2), some .exitIfFailed, some .endRepeat, some .stopIfRejected, some .finish] ∧
    (controlled 2 2 .fail).ReadsLinesFirst [] 0 ∧ ((controlled 2 2 .fail).station.get 0).state = .running ∧
    (∃ l ∈ ((controlled 5 1 .fail).station.get 0).lines, l.grade = .must ∧ l.outcome = .fail) ∧
    ¬(∃ l ∈ ((controlled 5 1 .pass).station.get 0).lines, l.grade = .must ∧ l.outcome = .fail) ∧
    ((controlled 3 2 .pass).cycleFrame .outbound (cycleFrame 6) 50 []).activeAt 0 = true := by
  unfold Part.ReadsLinesFirst
  decide +kernel

theorem witness_LadderMovesOn :
    let p := climbing 2 1 2 .dwell
    p.online = true ∧ (p.station.get 0).state = .running ∧
    p.currentStep 0 = some (.ladder 15 true 100 50 2 true 1 true 2) ∧ (p.profile.get 0).movesLeft ≠ 0 ∧
    (p.profile.get 0).rung ≤ 15 ∧ (p.profile.get 0).rungPhase = .dwell ∧ 20 * 1 ≤ (p.profile.get 0).dwellCount ∧
    ((climbing 2 1 2 .measure).profile.get 0).rungPhase = .measure ∧
    ((climbing 2 1 2 .measure).collector.get 0).report ≠ .none := by decide +kernel

/-- RAMP to -1,000 rpm at 100 rpm/s after a forward run; the default reversal dwell is 200 ms or less than 10 s. -/
def reversing : Part :=
  (running [entry [1, 0xFC, 0x18, 0, 100, 0, 50]] []).modProfile 0 (fun e =>
    { e with target := -1024000, lastSign := .forward, zeroRun := 200000 })

theorem witness_ReversalMoves :
    reversing.online = true ∧ (reversing.station.get 0).state = .running ∧
    reversing.currentStep 0 = some (.ramp (-1000) 100 50) ∧ (reversing.profile.get 0).setpoint = 0 ∧
    (reversing.profile.get 0).target < 0 ∧ (reversing.profile.get 0).lastSign = .forward ∧
    20 * reversing.cell.dwell ≤ (reversing.profile.get 0).zeroRun ∧
    ((reversing.profile.get 0).remainder + 100 * 1024) / 20000 < (reversing.profile.get 0).target.natAbs := by decide +kernel

theorem witness_ReversalMoves_ladder :
    (climbing 2 1 2 .ramp).currentStep 0 = some (.ladder 15 true 100 50 2 true 1 true 2) ∧
    ((climbing 2 1 2 .ramp).profile.get 0).rungPhase = .ramp ∧ ((climbing 2 1 2 .ramp).profile.get 0).setpoint = 0 := by
  decide +kernel

/-- The closes of a ramp: the dwell over, one cycle short of it, and the stop ramp of FINISHING. -/
theorem witness_ReversalMoves_close :
    (state reversing).Closes (cycleFrame 6) 50 [] 5 ∧ (state (inState reversing 0 .finishing)).Closes (cycleFrame 6) 50 [] 5 :=
  ⟨closes_of _ _ _ (by decide +kernel), closes_of _ _ _ (by decide +kernel)⟩

theorem witness_ReversalMoves_cases :
    let at_ (p : Part) := (p.cycleFrame .outbound (cycleFrame 6) 50 []).profile.get 0
    let waiting := reversing.modProfile 0 (fun e => { e with zeroRun := 20 * reversing.cell.dwell - 2 })
    let running := reversing.modProfile 0 (fun e => { e with setpoint := 12, remainder := 19999 })
    ((at_ reversing).setpoint, (at_ waiting).setpoint, (at_ running).setpoint, (at_ running).remainder) = (-5, 0, 6, 2399) ∧
    (reversing.cycleFrame .outbound (cycleFrame 6) 50 []).activeAt 0 = true ∧
    ((inState running 0 .finishing).cycleFrame .outbound (cycleFrame 6) 50 []).activeAt 0 = true ∧
    (reversing.cycleFrame .outbound (cycleFrame 6) 50 []).activeAt 0 = true := by decide +kernel

theorem witness_LeakSequenceStarts :
    let p (mode : Byte) := running [entry [5, 0, mode], entry [11]] []
    (p 1).online = true ∧ ((p 1).station.get 0).state = .running ∧ (p 1).currentStep 0 = some (.leak .a true) ∧
    (p 0).currentStep 0 = some (.leak .a false) ∧ ((p 1).profile.get 0).leakStarted = false ∧
    ((p 1).profile.get 0).pendingAbort = false ∧ ((p 1).leak.get 0).phase = .idle ∧ (∀ q ∈ [p 1, p 0], q.AirLaw) ∧
    (p 1).manifold.queue = [] ∧ (p 1).manifold.holder = none ∧ (p 1).manifold.purging = false ∧ (p 1).manifold.quiet = [] := by
  unfold Part.AirLaw
  decide +kernel

/-- Station 0 starts its sequence behind a queue, with nothing in the way and with a quiet holder. -/
theorem witness_LeakSequenceStarts_queue :
    let p (quiet : List Stn) := (inPhase (running [entry [5, 0, 0], entry [11]] []) 1 .queued).modManifold (fun m =>
      { m with quiet := quiet })
    (p []).online = true ∧ (∀ q ∈ [p [], p [2]], q.AirLaw) ∧ (p []).manifold.queue ++ [(0 : Stn)] = (1 : Stn) :: [0] ∧
    (p []).manifold.holder = none ∧ (p []).manifold.purging = false ∧ (p []).manifold.quiet = [] ∧
    (p [2]).manifold.quiet ≠ [] ∧ ((p [2]).leak.get 0).phase = .idle := by
  unfold Part.AirLaw
  decide +kernel

/-! ## Witnesses: noise windows -/

/-- Station 0's collector in a state with a job. -/
def collecting (x : CollectorState) (job : Job) (f : Collector → Collector) : Part :=
  (inState part 0 .running).modCollector 0 (fun c => f { c with state := x, job := some job })

def job (quiet : Bool) : Job := { target := 1, quiet := quiet, settle := 100 }

theorem witness_CollectorSettles :
    let p := collecting .settling (job false) (fun c => { c with settleCount := 100 })
    p.online = true ∧ (p.collector.get 0).state = .settling ∧ (p.collector.get 0).job = some (job false) ∧
    (job false).settle ≤ (p.collector.get 0).settleCount := by decide +kernel

/-- A steady gate at exactly 60 rpm. -/
def steadyPart (quiet : Bool) : Part :=
  ((collecting .armed (job quiet) id).modProfile 0 (fun e => { e with inForce := -61440 })).modTracker 0 (fun t =>
    { t with speed := some (-60) })

theorem witness_WindowStarts :
    (steadyPart true).online = true ∧ ((steadyPart true).collector.get 0).state = .armed ∧
    ((steadyPart true).collector.get 0).job = some (job true) ∧ ((steadyPart true).tracker.get 0).speed = some (-60) ∧
    60 * 1024 ≤ ((steadyPart true).profile.get 0).inForce.natAbs ∧
    (-60 - ((steadyPart true).profile.get 0).inForce.tdiv 1024).natAbs * 100 ≤
      ((steadyPart true).variantAt 0).tolerance * (((steadyPart true).profile.get 0).inForce.tdiv 1024).natAbs ∧
    (steadyPart true).airEvent = false ∧ ((steadyPart true).tracker.get 0).indexReport = false ∧
    (steadyPart true).manifold.deferred = [] ∧ ((steadyPart false).collector.get 0).job = some (job false) := by decide +kernel

/-- A COLLECTING collector of station 0 with channel VIB0 and revolution 7 open, in its lead-in or past it, and a VIB0 frame; the
tracker turned `edges` past an index whose count it has seen or not. -/
def gathering (leadIn newRevolution : Bool) : Part :=
  let p := (mapped.modRouter (fun r => (r.take (.tach 100#16 1#8 90#16) 9).1)).modRouter (fun r => (r.take (.vib 5#16 false) 13).1)
  let p := (inState p 0 .running).modStation 0 (fun x => { x with required := [.vib0, .tach] })
  let p := (p.modTables (fun t => t.setSlot .variant 0
    { state := .ready, generation := 1, references := 1, entryCount := 2,
      entries := [some (entry []), some (entry [1, 5, 0, 0, 0, 100])] })).modStation 0 (fun x =>
    { x with binding := { x.binding with variant := some { slot := 0, generation := 1 } } })
  let p := p.modTracker 0 (fun t =>
    { t with tracking := true, p := 2048, reference := some (95, if newRevolution then 0 else 1), revolution := 7 })
  p.modCollector 0 (fun c => { c with state := .collecting, job := some (job false), leadIn := leadIn, openRevolution := 7,
                                      latestBoundary := if leadIn then none else some 1 })

theorem witness_WindowStarts_close (leadIn newRevolution : Bool) :
    (state (gathering leadIn newRevolution)).Closes (cycleFrame 6) 50 [] 5 :=
  closes_of _ _ _ (by cases leadIn <;> cases newRevolution <;> decide +kernel)

/-- A current sample, the end of the lead-in, and a closed revolution. -/
theorem witness_WindowStarts_cases :
    let p := gathering false false
    let after (l n : Bool) := ((gathering l n).cycleFrame .outbound (cycleFrame 6) 50 []).collector.get 0
    ((p.collector.get 0).state = .collecting ∧ (p.station.get 0).counters.disturbed < 65535 ∧
      (∀ ch, ((p.collector.get 0).channels.get ch).sums.length = 256 ∧
        ((p.collector.get 0).channels.get ch).counts.length = 256 ∧
        ((p.collector.get 0).channels.get ch).averages.length = 256)) ∧
    ((after false false).state, (after false false).placed, (after false false).revolutionsDone) = (.collecting, 1, 0) ∧
    ((after true true).state, (after true true).leadIn, (after true true).firstBoundary) = (.collecting, false, some 5) := by
  decide +kernel

/-- A window of depth 1 that is complete after 400 cycles. -/
def complete : Part :=
  ((collecting .collecting (job false) (fun c =>
    { c with direction := .reverse, firstBoundary := some 100, latestBoundary := some 500, revolutionsDone := 1,
             lengths := [400], placed := 64, defects := 1 })).modTables (fun t => t.setSlot .variant 0
      { state := .ready, generation := 1, references := 1, entryCount := 2,
        entries := [some (entry []), some (entry [0, 5, 0, 0, 0, 100])] })).modStation 0 (fun x =>
    { x with binding := { x.binding with variant := some { slot := 0, generation := 1 } } })

theorem witness_WindowValid :
    complete.online = true ∧ (complete.collector.get 0).state = .collecting ∧
    (complete.variantAt 0).depth ≤ (complete.collector.get 0).revolutionsDone ∧
    (complete.tracker.get 0).indexReport = false ∧
    directionTest (complete.collector.get 0).direction ((complete.tracker.get 0).entryFor complete.cycleNow) =
      some .reverse ∧
    (complete.collector.get 0).unsteady (complete.variantAt 0) = false ∧
    (complete.collector.get 0).defects ≤ (complete.collector.get 0).placed / 64 ∧
    (complete.collector.get 0).total ≠ 0 ∧ complete.engine.evaluation = none ∧ complete.engine.queue = [] := by decide +kernel

/-- A window for each cause that ends it at its completion. -/
theorem witness_WindowValid_causes :
    let turned := complete.modTracker 0 (fun t =>
      { t with history := [{ cycle := 5, revolution := 0, bin := 0, direction := .forward, valid := true }] })
    let part (f : Collector → Collector) := complete.modCollector 0 f
    ((complete.modTracker 0 (fun t => { t with indexReport := true })).tracker.get 0).indexReport = true ∧
    ((turned.tracker.get 0).entryFor turned.cycleNow).map HistoryEntry.direction = some .forward ∧
    (turned.collector.get 0).direction = .reverse ∧ complete.Sized ∧
    ((part (fun c => { c with revolutionsDone := 2, lengths := [100, 300] })).collector.get 0).unsteady
      (complete.variantAt 0) = true ∧
    ((part (fun c => { c with defects := 2 })).collector.get 0).placed / 64 <
      ((part (fun c => { c with defects := 2 })).collector.get 0).defects := by
  unfold Part.Sized
  decide +kernel

/-- The attempt is armed or collecting at the time limit of 100 ms, with these retries left. -/
theorem witness_WindowOvertime :
    let p (x : CollectorState) (n : Nat) := complete.modCollector 0 (fun c =>
      { c with state := x, revolutionsDone := 0, windowTimer := 2000, budget := n })
    (p .armed 0).online = true ∧ (p .armed 0).Sized ∧ ((p .armed 0).collector.get 0).state = .armed ∧
    20 * ((p .armed 0).variantAt 0).timeLimit ≤ ((p .armed 0).collector.get 0).windowTimer ∧
    ((p .armed 0).collector.get 0).budget = 0 ∧ ((p .collecting 2).collector.get 0).state = .collecting ∧
    ((p .collecting 2).collector.get 0).revolutionsDone < ((p .collecting 2).variantAt 0).depth ∧
    ((p .collecting 2).collector.get 0).budget ≠ 0 := by
  unfold Part.Sized
  decide +kernel

/-- The engine evaluates a window of station 0, with or without the discard mark, and station 1 waits. -/
def busy (discard : Bool) : Part :=
  (collecting .evaluating (job false) id).modEngine (fun _ =>
    { queue := [1], evaluation := some { station := 0, number := 1, speed := -1497, discard := discard, age := 0 } })

theorem witness_EngineTurns :
    let free := (busy false).modEngine (fun x => { x with evaluation := none })
    free.resetHeld = false ∧ free.engine.evaluation = none ∧ free.engine.queue = [1] ∧
    (busy false).resetHeld = false ∧
    (busy false).engine.evaluation = some { station := 0, number := 1, speed := -1497, discard := false, age := 0 } ∧
    ((busy false).collector.get 0).job = some (job false) ∧ (job false).target ≤ ((busy false).collector.get 0).evaluated + 1 ∧
    ((busy false).collector.get 0).evaluated + 1 < 2 ∧ ((busy true).engine.evaluation.map Evaluation.discard) = some true := by
  decide +kernel

/-- A limit table of two entries of which the first is in band at exactly the window's speed, and the lines of both. -/
theorem witness_NoiseLinesJudged :
    let line (id : Nat) : CheckLine := { id := id, family := .order, grade := .must, outcome := .notMeasured,
                                         reason := .noWindow, evaluations := 0, worst := 0, limit := 45,
                                         speedAtWorst := 0, windowAtWorst := 0 }
    let p := ((busy false).modTables (fun t => t.setSlot .limit 0
        { state := .ready, generation := 1, references := 1, entryCount := 2,
          entries := [some (entry [11, 0, 0, 0, 20, 0xFA, 0x27, 0, 0, 0, 0, 45]), some (entry [12, 0, 0, 0, 20, 0, 1, 0, 2, 0, 0, 9])]
        })).modStation 0 (fun x =>
      { x with binding := { x.binding with limit := some { slot := 0, generation := 1 } }, lines := [line 11, line 12] })
    p.resetHeld = false ∧ (p.engine.evaluation.map Evaluation.speed) = some (-1497) ∧
    (p.limitEntries 0).map LimitEntry.checkId = [11, 12] ∧
    (p.limitEntries 0).map (fun x => decide (x.low ≤ -1497 ∧ -1497 ≤ x.high)) = [true, false] ∧
    (p.limitEntries 0).head?.map LimitEntry.low = some (-1497) ∧
    (p.station.get 0).lines.map CheckLine.id = [11, 12] := by decide +kernel

/-- The averaged waveforms after reset have the length that the metrics ask for. -/
theorem witness_NoiseLinesJudged_wave (ch : Stn) :
    (((busy false).collector.get 0).channels.get ch).waveform.length = 256 := by revert ch; decide +kernel

/-! ## Witnesses: leak testing -/

/-- Station 0 is in QUEUED, station 1 collects, and no valve is open. -/
def waiting (quiet : Bool) : Part :=
  (inPhase (inState part 0 .running) 0 .queued).modCollector 1 (fun c =>
    { c with state := .collecting, job := some (job quiet) })

theorem witness_ManifoldGrants :
    (waiting true).resetHeld = false ∧ (waiting true).manifold.queue = [0] ∧ (waiting true).manifold.holder = none ∧
    (waiting true).manifold.purging = false ∧ (waiting true).manifold.quiet = [] ∧
    ((waiting false).collector.get 1).state = .collecting ∧ ((waiting false).collector.get 1).job = some (job false) ∧
    ((waiting true).collector.get 1).job = some (job true) := by decide +kernel

/-- Only a quiet holder stands in the way, with the head on the deferred list or off it; a grant held; the purge running. -/
theorem witness_ManifoldGrants_held_back :
    let p (deferred : List (Stn × Held)) := (waiting true).modManifold (fun m => { m with quiet := [1], deferred := deferred })
    (p []).resetHeld = false ∧ (p []).manifold.queue = [0] ∧ (p []).manifold.holder = none ∧
    (p []).manifold.purging = false ∧ (p []).manifold.quiet ≠ [] ∧ (p []).manifold.deferred = [] ∧
    (0, Held.grant) ∈ (p [(0, .grant)]).manifold.deferred ∧ filling.manifold.holder ≠ none ∧ part.manifold.queue = [] ∧
    ((waiting true).modManifold (fun m => { m with purging := true })).manifold.purging = true := by decide +kernel

theorem witness_ManifoldTimesOut :
    let p := (waiting false).modLeak 0 (fun x => { x with waitCount := 600000 })
    p.online = true ∧ p.Sized ∧ (p.leak.get 0).phase = .queued ∧ 20 * p.cell.waitLimit ≤ (p.leak.get 0).waitCount := by
  unfold Part.Sized
  decide +kernel

theorem witness_FillTimesOut :
    let p := filling.modLeak 0 (fun x => { x with fillTimer := 400, copy := { x.copy with fillTimeout := 400 } })
    p.online = true ∧ p.AirLaw ∧ (p.leak.get 0).phase = .fill ∧ (p.leak.get 0).copy.fillTimeout ≤ (p.leak.get 0).fillTimer ∧
    p.manifold.quiet = [] ∧ (p.leak.get 0).which = some .a ∧ p.cell.purge ≠ 0 := by
  unfold Part.AirLaw
  decide +kernel

/-- A purge at its end, with an empty queue, with a queue, and with a quiet holder. -/
theorem witness_PurgeEnds :
    let p (q : Part) (quiet : List Stn) := q.modManifold (fun m => { m with purging := true, purgeCount := 6000, quiet := quiet })
    (p part []).online = true ∧ (∀ q ∈ [p part [], p (waiting false) [], p (waiting false) [2]], q.AirLaw) ∧
    (p part []).manifold.purging = true ∧ 20 * (p part []).cell.purge ≤ (p part []).manifold.purgeCount ∧
    (p part []).manifold.queue = [] ∧ (p (waiting false) []).manifold.queue = [0] ∧
    (p (waiting false) [2]).manifold.quiet ≠ [] := by
  unfold Part.AirLaw
  decide +kernel

theorem witness_SettleAndVentEnd :
    let p := (inPhase part 0 .settle).modLeak 0 (fun x => { x with settleCount := 40, copy := { x.copy with settle := 40 } })
    let q := (inPhase part 0 .vent).modLeak 0 (fun x => { x with ventCount := 40, copy := { x.copy with vent := 40 } })
    p.online = true ∧ (p.leak.get 0).phase = .settle ∧ (p.leak.get 0).copy.settle ≤ (p.leak.get 0).settleCount ∧
    q.online = true ∧ (q.leak.get 0).phase = .vent ∧ (q.leak.get 0).copy.vent ≤ (q.leak.get 0).ventCount ∧
    q.manifold.holder = none ∧ q.manifold.purging = false := by decide +kernel

/-- A sequencer of station 0 in a phase of which no count is at its limit; PRESS delivers, TEMP does not, and the measurement stands
at the last close of its head. -/
def counting (x : Phase) : Part :=
  ((inPhase mapped 0 x).modRouter (fun r => (r.take (.press 1000#24 false) 10).1)).modLeak 0 (fun s =>
    { s with
      measureCount := 255
      copy := { s.copy with target := 2000, fillTimeout := 40, settle := 40, measure := 1280, vent := 40 } })

theorem witness_SettleAndVentEnd_close (x : Phase) : (state (counting x)).Closes (cycleFrame 6) 50 [] 5 :=
  closes_of _ _ _ (by cases x <;> decide +kernel)

/-- In every phase the sequencer stays in it. -/
theorem witness_SettleAndVentEnd_phases :
    let phases : List Phase := [.queued, .fill, .settle, .measure, .ventWait, .vent]
    let quiet (x : Phase) := (counting x).modManifold (fun m => { m with quiet := [1] })
    (∀ x ∈ phases, (counting x).AirLaw ∧ (quiet x).AirLaw ∧
      (((quiet x).cycleFrame .outbound (cycleFrame 6) 50 []).leak.get 0).phase = x) ∧
    ((counting .fill).roleRecord none .valve).isSome = true ∧ ((counting .fill).roleAt 0 .press).isSome = true ∧
    ((counting .fill).roleAt 0 .temp).isSome = true ∧
    (((counting .measure).cycleFrame .outbound (cycleFrame 6) 50 []).leak.get 0).headPress = 1000 ∧
    (((counting .measure).cycleFrame .outbound (cycleFrame 6) 50 []).leak.get 0).defects = 1 := by
  unfold Part.AirLaw
  decide +kernel

/-- A measurement of 1,280 cycles that is done; all temperatures 293.15 K. -/
def measured (defects tail rise : Nat) : Part :=
  ((inPhase part 0 .measure).modLeak 0 (fun x =>
    { x with
      measureCount := 1280, defects := defects, headPress := 25600000, tailPress := tail
      headTemp := 29315 * 256, tailTemp := 29315 * 256
      copy := { x.copy with checkId := 7, measure := 1280, rateLimit := 500, riseLimit := rise, compensate := true }
    })).modStation 0 (fun x =>
      { x with lines := [{ id := 7, family := .leak, grade := .must, outcome := .notMeasured, reason := .notReached,
                           evaluations := 0, worst := 0, limit := 500, speedAtWorst := 0, windowAtWorst := 0 }] })

/-- A PASS (rate 0), a FAIL, a RISE and a SIGNAL: the defects exceed one sixty-fourth of the window. -/
theorem witness_MeasurementDecides :
    (measured 20 25600000 0).online = true ∧ (measured 20 25600000 0).AirLaw ∧
    ((measured 20 25600000 0).leak.get 0).phase = .measure ∧
    ((measured 20 25600000 0).leak.get 0).copy.measure ≤ ((measured 20 25600000 0).leak.get 0).measureCount ∧
    1280 / 64 < ((measured 21 25600000 0).leak.get 0).defects ∧ ¬(1280 / 64 < ((measured 20 25600000 0).leak.get 0).defects) ∧
    ((measured 20 25600000 0).leak.get 0).which = some .a ∧ (measured 20 25600000 0).manifold.quiet = [] := by
  unfold Part.AirLaw
  decide +kernel

/-- Untrusted temperatures, a line that is FAIL already, a quiet holder, and leak B. -/
theorem witness_MeasurementDecides_others :
    let cold := (measured 20 25600000 0).modLeak 0 (fun x => { x with headTemp := 19999 * 256 })
    let failed := (measured 20 25600000 0).modStation 0 (fun x =>
      { x with lines := x.lines.map (fun l => { l with outcome := .fail, reason := .gross }) })
    let held := (measured 20 25600000 0).modManifold (fun m => { m with quiet := [1] })
    let second := (measured 20 25600000 0).modLeak 0 (fun x => { x with which := some .b })
    let line (p : Part) := (((p.measureComplete 0).station.get 0).lines.map (fun l => (l.outcome, l.reason)))
    (∀ p ∈ [cold, failed, held, second], p.AirLaw) ∧ held.manifold.quiet ≠ [] ∧
    (second.leak.get 0).which = some .b ∧ (cold.leak.get 0).headTemp / 256 = 19999 ∧
    line cold = [(.notMeasured, .tempInvalid)] ∧ line failed = [(.fail, .gross)] ∧
    ((held.measureComplete 0).leak.get 0).phase = .ventWait := by
  unfold Part.AirLaw
  decide +kernel

/-- What the measurements above are decided to be (R136, R137). -/
theorem test_measurement :
    let line (p : Part) := (((p.measureComplete 0).station.get 0).lines.map (fun l => (l.outcome, l.reason, l.worst)))
    line (measured 20 25600000 0) = [(.pass, .none, 0)] ∧
    line (measured 20 (99999 * 256) 0) = [(.fail, .none, 1171)] ∧
    line (measured 20 (100001 * 256) 0) = [(.notMeasured, .rise, -1171)] ∧
    line (measured 20 (100001 * 256) 1171) = [(.pass, .none, -1171)] ∧
    line (measured 21 (99999 * 256) 0) = [(.notMeasured, .signal, 0)] := by decide +kernel

theorem witness_DeferredReleased :
    let p := inPhase (waiting false) 2 .ventWait
    p.resetHeld = false ∧ p.AirLaw ∧ p.manifold.quiet = [] ∧ (2, Held.vent) ∈ p.manifold.deferred ∧
    p.manifold.queue = [0] ∧ p.manifold.holder = none ∧ p.manifold.purging = false := by
  unfold Part.AirLaw
  decide +kernel

/-! ## Witnesses: commands -/

/-- The witness of every statement that asks only for `State.Ready`. -/
theorem witness_ready : (state part).Ready ∧ (state mapped).Ready := by
  unfold State.Ready
  decide +kernel

/-- A READY slot. -/
def readySlot (es : List Entry) : Slot :=
  { state := .ready, generation := 1, references := 0, entryCount := es.length, entries := es.map some }

/-- Variant 0 over profile 0 of these steps, which names no other table. -/
def startable (p : Part) (steps : List Entry) : Part :=
  p.modTables (fun t =>
    (t.setSlot .variant 0 (readySlot [entry [0, 7, 0, 255, 255, 255], entry [3, 5, 0, 0, 0, 100]])).setSlot .profile 0
      (readySlot (entry [8, 0, b8 steps.length] :: steps)))

/-- The tests of R1 on a part. -/
def startTests (p : Part) : Option (Bool × Bool × Bool × Bool) :=
  (p.tables.named 0).map (fun n =>
    (idsClash n.ids, n.leakMissing,
      decide (∀ r ∈ n.required, ∃ c ∈ p.router.entries, c.entry.owner = roleOwner 0 r ∧ c.entry.role = r),
      decide (p.reports.held.length + p.reports.reservations ≠ 12)))

theorem witness_StartAccepted :
    (startable mapped [entry [11]]).online = true ∧ (entry []).length = 16 ∧
    ((startable mapped [entry [11]]).station.get 0).state = .idle ∧
    startTests (startable mapped [entry [11]]) = some (false, false, true, true) ∧
    (0#5).toNat < (startable mapped [entry [11]]).tables.variant.length := by decide +kernel

/-- A variant that names a limit table and both leaks: VIB0, PRESS, TEMP and VALVE join the required set. -/
def startableFull : Part :=
  (startable mapped [entry [11]]).modTables (fun t =>
    (((t.setSlot .variant 0 (readySlot [entry [0, 7, 0, 1, 2, 3], entry [3, 5, 0, 0, 0, 100]])).setSlot .limit 1
      (readySlot [entry [11, 0, 0, 0, 20, 0, 1, 0, 2, 0, 0, 9]])).setSlot .leak 2
      (readySlot [entry [12], entry []])).setSlot .leak 3 (readySlot [entry [13], entry []]))

theorem witness_StartAccepted_full :
    startTests startableFull = some (false, false, true, true) ∧
    ((startableFull.tables.named 0).map (fun n => (n.variant.limit, n.variant.leakA, n.variant.leakB))) =
      some (some 1, some 2, some 3) ∧
    ((startableFull.tables.named 0).map (fun n => n.lines.map (fun l => (l.id, l.family, l.limit)))) =
      some [(11, .order, 9), (12, .leak, 0), (13, .leak, 0)] := by decide +kernel

/-- BUSY, NO_TABLE, BAD_VARIANT by an unnamed leak, NO_CHANNEL and STORE_FULL. -/
theorem witness_StartRefused :
    (spinning.station.get 0).state ≠ .idle ∧ mapped.tables.named 0 = none ∧ (mapped.station.get 0).state = .idle ∧
    startTests (startable mapped [entry [5, 0, 0], entry [11]]) = some (false, true, true, true) ∧
    startTests (startable part [entry [11]]) = some (false, false, false, true) ∧
    startTests ((startable mapped [entry [11]]).modReports (fun r => { r with reservations := 12 })) =
      some (false, false, true, false) := by decide +kernel

/-- A check id in a profile and twice in no table of its own: the lists clash exactly across tables (R2). -/
theorem test_idsClash : idsClash [[1, 1], [2], [], []] = false ∧ idsClash [[1, 2], [], [2], []] = true := by decide +kernel

theorem witness_AbortByState :
    let p (x : StationState) := inState part 3 x
    (3 < (4#8).toNat ∧ (1#8).toNat ≤ 1) ∧ ((p .idle).station.get 3).state = .idle ∧
    ((p .halted).station.get 3).state = .halted ∧ ((p .stopping).station.get 3).state = .stopping ∧
    ((p .running).station.get 3).state = .running ∧ ((p .prep).station.get 3).state = .prep ∧
    ((p .finishing).station.get 3).state = .finishing ∧ (∀ x ∈ [StationState.running, .prep, .finishing], (p x).AirLaw) ∧
    (p .running).online = true := by
  unfold Part.AirLaw
  decide +kernel

theorem witness_ClearsHaltedStation :
    ((inState part 3 .halted).station.get 3).state = .halted ∧ (part.station.get 3).state ≠ .halted ∧
    (inState part 3 .halted).online = true ∧ 3 < (4#8).toNat := by decide +kernel

theorem witness_SnapshotInTwoHalves :
    part.capture = none ∧ ({ part with capture := some { station := 2, record := [] } } : Part).capture ≠ none ∧
    3 < (4#8).toNat := by decide +kernel

/-- A load of 2 entries in PROFILE slot 15, the last, is in progress. -/
def loading : Part :=
  part.modTables (fun t =>
    { t.setSlot .profile 15 { state := .loading, generation := 3, references := 0, entryCount := 2, entries := [none, none] }
      with loading := some (.profile, 15) })

theorem witness_LoadBegins :
    let used := part.modTables (fun t => t.setSlot .leak 7 { Slot.reset with references := 1 })
    loading.online = true ∧ loading.Sized ∧ kindOfCode 0 = none ∧ kindOfCode 7 = none ∧ kindOfCode 6 = some .cell ∧
    (Kind.cell.slots ≤ 1 ∧ 2 < Kind.cell.counts.1 ∧ Kind.cell.counts.2 < 4) ∧
    (used.tables.slot .leak 7).references ≠ 0 ∧ (inState part 0 .prep).anyActive = true ∧ part.anyActive = false ∧
    (part.tables.slot .cell 0).references = 0 ∧ loading.tables.loading = some (.profile, 15) ∧
    part.tables.loading = none := by
  unfold Part.Sized
  decide +kernel

theorem witness_LoadEntryStores :
    part.tables.loading = none ∧ loading.tables.loading = some (.profile, 15) ∧
    (loading.tables.slot .profile 15).entryCount ≤ (2 : Fin 96).val ∧
    (1 : Fin 96).val < (loading.tables.slot .profile 15).entryCount ∧ (entry []).length = 16 := by decide +kernel

/-- A CELL table that holds the defaults of R165. -/
def cellTable : List Entry :=
  [entry [0x0B, 0xB8, 0x07, 0xD0, 0x01, 0xF4, 0x01, 0x2C, 0x75, 0x30],
    entry [3, 3, 3, 3, 2, 2, 2, 2, 1, 1, 1, 1, 1, 1, 1, 1], entry [0, 0, 0, 0, 3, 2, 1, 2]]

theorem test_cell_defaults : cellOf cellTable = Cell.defaults := by decide +kernel

/-- A CELL table that is loaded whole. -/
def cellLoaded (p : Part) (es : List (Option Entry)) : Part :=
  p.modTables (fun t =>
    { t.setSlot .cell 0 { Slot.reset with state := .loading, entryCount := 3, entries := es } with loading := some (.cell, 0) })

/-- A profile table loaded whole over a header that asks for its entries. -/
def profileSlot (es : List Entry) (ladder : Byte) : Slot :=
  { Slot.reset with state := .loading, entryCount := es.length + 1,
                    entries := (entry [8, 0, b8 es.length, ladder] :: es).map some }

/-- The conditions under which LOAD_END validates, refuses and is out of sequence. -/
theorem witness_LoadEnds :
    (cellLoaded part (cellTable.map some)).anyActive = false ∧
    (cellLoaded (inState part 0 .prep) (cellTable.map some)).anyActive = true ∧
    (cellLoaded part (cellTable.map some)).tables.loading = some (.cell, 0) ∧ part.tables.loading = none ∧
    ((cellLoaded part (cellTable.map some)).tables.slot .cell 0).fault .cell = none := by decide +kernel

/-- A table that validation faults: entry 0 of the load in progress is not written. -/
theorem witness_LoadEnds_faulty : (loading.tables.slot .profile 15).FaultyAs .profile .count 0 :=
  .inl ⟨rfl, by decide +kernel, fun n h => absurd h n.not_lt_zero⟩

/-- A MAP table of one entry, loaded whole. -/
def mapSlot : Slot := { Slot.reset with state := .loading, entryCount := 1, entries := [some (entry [9, 63, 0, 4])] }

theorem mapSlot_in_range : MapInRange (mapSlot.table.getD 0 []) := by
  unfold MapInRange OnlyFields
  decide +kernel

theorem witness_LoadEnds_valid (b : BadTable) (i : Nat) : ¬mapSlot.FaultyAs .map b i := by
  have whole : ∀ n, ¬(n < mapSlot.entryCount ∧ mapSlot.entries.getD n none = none) := by
    rintro n ⟨h, e⟩
    obtain rfl : n = 0 := Nat.lt_one_iff.1 h
    cases e
  have sound : ∀ n steps b, n < mapSlot.entryCount → ¬EntryFails .map steps n (mapSlot.table.getD n []) b := by
    intro n steps b h
    obtain rfl : n = 0 := Nat.lt_one_iff.1 h
    intro f
    cases b
    case range => exact f mapSlot_in_range
    all_goals exact f
  unfold Slot.FaultyAs
  simp only [FirstStage, FirstCheck]
  rintro (count | ⟨-, noEnd | ⟨-, endEarly | ⟨-, later⟩⟩⟩)
  · exact whole i count.2.1
  · cases noEnd.1
  · cases endEarly.1
  rcases later with stepFault | ⟨-, nested | ⟨-, endless | ⟨-, later⟩⟩⟩
  · exact sound i _ b stepFault.1.1.1 stepFault.1.1.2
  · cases nested.1
  · cases endless.1
  rcases later with unmatched | ⟨-, noFill | ⟨-, late | ⟨-, valid⟩⟩⟩
  · cases unmatched.1
  · cases noFill.1
  · cases late.1
  · exact valid

/-- A table for each stage of validation that faults it, and where (R159 to R161). -/
theorem test_table_faults :
    let profile (es : List Entry) := (profileSlot es 0).fault .profile
    let limit (es : List Entry) := ({ Slot.reset with entryCount := es.length, entries := es.map some } : Slot).fault .limit
    (loading.tables.slot .profile 15).fault .profile = some (.count, 0) ∧
    profile [entry [12], entry [11]] = some (.range, 1) ∧
    (profileSlot [entry [11]] 1).fault .profile = some (.count, 0) ∧
    profile [entry [2, 0, 1, 0, 0, 0, 0, 1, 3, 0, 0, 2, 0, 1], entry [11]] = some (.band, 1) ∧
    profile [entry [7, 2], entry [6], entry [11]] = some (.loop, 1) ∧ profile [entry [8], entry [11]] = some (.loop, 1) ∧
    profile [entry [11], entry [6]] = some (.finish, 1) ∧ profile [ladderStep 2 1, entry [11]] = some (.ladder, 1) ∧
    profile [holdStep, entry [2, 0, 1, 0, 0, 0, 0, 1, 3], entry [11]] = some (.torqueId, 2) ∧
    profile [holdStep, holdStep, entry [7, 2], entry [8], entry [11]] = none ∧
    limit [entry [11, 0, 0, 0, 20], entry [11, 0, 0, 0, 20]] = some (.dupId, 1) ∧
    limit [entry [11, 0, 0, 0, 128]] = some (.order, 0) := by decide +kernel

theorem witness_ClearTableEmpties :
    kindOfCode 1 = some .profile ∧ Kind.profile.slots ≤ 16 ∧ (loading.tables.slot .profile 15).references = 0 ∧
    loading.tables.loading = some (.profile, 15) ∧ kindOfCode 5 = some .map ∧ (mapped.tables.slot .map 0).references = 0 ∧
    mapped.anyActive = false ∧ (inState mapped 0 .prep).anyActive = true := by decide +kernel

theorem witness_StatusCommands :
    kindOfCode 0 = none ∧ Kind.leak.slots ≤ 8 ∧ 7 < Kind.leak.slots ∧ (loading.tables.slot .profile 15).state = .loading ∧
    kindOfCode 3 = some .leak := by decide +kernel

/-- A report of station 0 with no lines. -/
def report : Report :=
  { number := 517, station := 0, serial := entry [], variantCode := 7, startCycle := 0, endCycle := 5, endKind := .complete,
    haltReason := .none, verdict := .pass, clamped := false, counters := Counters.reset, detailA := Detail.reset,
    detailB := Detail.reset, lines := [] }

theorem witness_FetchServesOldest :
    let p := part.modReports (fun r => { r with held := [report] })
    part.reports.held = [] ∧ p.reports.held = [report] ∧ 7 + report.lines.length ≤ (7#8).toNat ∧
    (6#8).toNat < 7 + report.lines.length ∧ p.online = true := by decide +kernel

/-- A record with a line serves segments up to 7, and its detail blocks present or not. -/
theorem witness_FetchServesOldest_line :
    let line : CheckLine := { id := 11, family := .order, grade := .watch, outcome := .fail, reason := .none, evaluations := 2,
                              worst := 46, limit := 45, speedAtWorst := 40000, windowAtWorst := 1 }
    let r := { report with lines := [line], detailA := { Detail.reset with present := true, fillTime := 70000 } }
    let p := part.modReports (fun x => { x with held := [r] })
    (7#8).toNat < 7 + r.lines.length ∧ 7 + r.lines.length ≤ (8#8).toNat ∧ p.online = true ∧ p.reports.held = [r] ∧
    r.detailA.present = true ∧ r.detailB.present = false := by decide +kernel

theorem witness_ReleaseRemovesOldest :
    let p := part.modReports (fun r => { r with held := [report, { report with number := 518 }] })
    (state p).Ready ∧ p.reports.held.head? = some report ∧ report.number ≠ 516 ∧ report.number = 517 ∧
    part.reports.held = [] := by
  unfold State.Ready
  decide +kernel

theorem witness_PartResets :
    (0 : Byte) ≠ 1 ∧ (3 : Byte) ≠ 2 ∧ (inState part 2 .stopping).anyActive = true ∧ mapped.anyActive = false ∧
    mapped.online = true ∧ (inState part 2 .stopping).online = true := by decide +kernel

theorem witness_UnknownAnswered : (0#8).toNat = 0 ∧ 14 ≤ (14#8).toNat ∧ (31#8).toNat ≤ 31 := by decide +kernel

/-! ## Witnesses: frames and invariants -/

theorem witness_EventFrames : ∃ t, exec (.manifoldTimeout 0) (state part) = .next t ∧
    (Instr.manifoldTimeout 0 ∈ stationEvents 0 ∧ Instr.purgeEnd ∈ partEvents) :=
  ⟨_, rfl, by decide +kernel, by decide +kernel⟩

theorem witness_CommandFrames : (∃ t, exec (.snapshot 1 0) (state part) = .next t) ∧ (state part).Ready ∧
    isStoreCommand (.snapshot 1 0) = true ∧ isStationCommand (.partReset 1 1) = true :=
  ⟨⟨_, rfl⟩, witness_ready.1, rfl, rfl⟩

/-- The hypotheses of the invariants: a step of a state with a command waiting, in which the laws hold. -/
theorem witness_laws_kept :
    filling.RingLaw ∧ filling.StoreLaw ∧ filling.AirLaw ∧ filling.Sized := by
  unfold Part.RingLaw Part.StoreLaw Part.AirLaw Part.Sized
  decide +kernel

/-- A step of that state with a command waiting. -/
theorem witness_laws_step : ∃ t, step { state filling with pending := [.powerOn 2] } = .next t := ⟨_, rfl⟩

/-- Station 0, bound to variant 0 and profile 0, collects a quiet window in the NOISE step of a loop, after a HOLD whose torque line
failed. -/
def lawful : Part :=
  let p := startable mapped [entry [7, 2], holdStep, entry [4, 1, 0, 1], entry [8], entry [11]]
  match p.tables.named 0 with
  | none => p
  | some n =>
    ((((p.accept 0 0 (entry []) n).modStation 0 (fun x =>
      { x with state := .running
               lines := x.lines.map (fun l => { l with outcome := .fail, evaluations := 1, worst := 150 }) })).modProfile 0 (fun e =>
      { e with step := 2, loops := [{ firstBody := 1, endIndex := 3, remaining := 1 }], setpoint := 61440 })).modCollector 0 (fun c =>
      { c with state := .collecting, job := some (job true) })).modManifold (fun m => { m with quiet := [0] })

theorem lawful_steps : lawful.currentStep 0 = some (.noise 1 0 true 0 0) := by decide +kernel

theorem lawful_beyond (k : Kind) (n : Nat) (h : 32 ≤ n) : lawful.tables.slot k n = Slot.reset := by
  have l : (lawful.tables.slots k).length ≤ 32 := by cases k <;> decide +kernel
  simp only [Tables.slot, List.getD_eq_getElem?_getD, List.getElem?_eq_none (Nat.le_trans l h), Option.getD_none]

theorem lawful_unbound (k : Kind) (n : Nat) (h : 32 ≤ n) : lawful.boundCount k n = 0 := by
  obtain ⟨m, rfl⟩ : ∃ m, n = m + 32 := ⟨n - 32, by omega⟩
  cases k <;> rfl

theorem lawful_lines : (lawful.station.get 0).lines.map (fun l => (l.id, l.outcome)) = [(3, .fail)] := by decide +kernel

/-- The hypotheses of the laws of tables, loops, collectors, air, analysis, setpoints and check lines. -/
theorem witness_laws_run :
    lawful.Sized ∧ lawful.TableLaw ∧ lawful.LoopLaw ∧ lawful.AirLaw ∧ lawful.CollectorLaw ∧ lawful.QuietLaw ∧ lawful.AnalysisLaw ∧
    lawful.SpeedLaw ∧ lawful.LineLaw := by
  have idle : lawful.engine.evaluation = none := rfl
  have load : lawful.tables.loading = none := rfl
  refine ⟨?_, ⟨fun k n => ?_, fun k n => ?_, fun k n => ?_, fun k n => ?_, fun st a b _ h => ?_⟩, fun st => ⟨?_, ?_, ?_, ?_⟩, ?_, fun st => ⟨?_, ?_, ?_, ?_, ?_⟩,
    ⟨?_, ?_, ?_⟩, ⟨?_, ?_, ?_⟩, fun st => ⟨?_, ?_, ?_⟩, fun st => ⟨?_, ?_, ?_⟩⟩
  · unfold Part.Sized; decide +kernel
  · by_cases h : n < 32
    · revert n; cases k <;> decide +kernel
    · rw [lawful_beyond k n (by omega), lawful_unbound k n (by omega)]; rfl
  · by_cases h : n < 32
    · revert n; cases k <;> decide +kernel
    · rw [lawful_beyond k n (by omega)]; intro h; exact absurd rfl h
  · by_cases h : n < 32
    · rw [load]; revert n; cases k <;> decide +kernel
    · rw [lawful_beyond k n (by omega), load]; simp [Slot.reset]
  · by_cases h : n < 32
    · revert n; cases k <;> decide +kernel
    · rw [lawful_beyond k n (by omega)]; intro h; cases h
  · have : (lawful.station.get st).binding.leakA = none := by clear h; revert st; decide +kernel
    rw [this] at h; cases h
  · revert st; decide +kernel
  · revert st; decide +kernel
  · revert st; decide +kernel
  · revert st; decide +kernel
  · unfold Part.AirLaw; decide +kernel
  · revert st; decide +kernel
  · revert st; decide +kernel
  · revert st; decide +kernel
  · revert st; decide +kernel
  · intro h
    have : st = 0 := by revert st; decide +kernel
    subst this
    exact ⟨by decide +kernel, by rw [lawful_steps]; trivial⟩
  · decide +kernel
  · decide +kernel
  · decide +kernel
  · decide +kernel
  · rw [idle]; decide +kernel
  · rw [idle]; decide +kernel
  · revert st; decide +kernel
  · revert st; decide +kernel
  · rintro ⟨a, b⟩
    have : st = 0 := by clear b; revert st; decide +kernel
    subst this
    rw [lawful_steps] at b; exact b.elim
  · unfold CheckLine.sound; revert st; decide +kernel
  · refine fun h => ⟨by clear h; revert st; decide +kernel, by clear h; revert st; decide +kernel, by revert st; decide +kernel, ?_⟩
    clear h; unfold CheckLine.soundFor; revert st; decide +kernel
  · have : (lawful.leak.get st).phase.testing = false := by revert st; decide +kernel
    rw [this]; intro h; cases h

/-- A step of that state: an event of station 0's collector. -/
theorem witness_laws_run_step : ∃ t, step { state lawful with pending := [.windowOvertime 0] } = .next t := ⟨_, rfl⟩

end Sys2Proof.Tests
end

section
/-!
SUPPORT. A command of the cell controller that is taken at its arrival, and what it leaves of the blocks of the stations.
-/
namespace Sys2Proof.Machine

open Sys2Proof

/-! ## A command taken at its arrival (R185, R186, R187) -/

/-- With nothing waiting a command is handed to its owner, and the owner's answer of one frame waits. -/
theorem State.Ready.become_command {s : State} (h : s.Ready) {code tag : Byte} {args : List Byte} {a : Answer}
    (ha : s.part.perform { code := code, tag := tag, args := padTo 16 args } = a) (hs : a.second = none) :
    s.become (s.part.atCommand code tag args) = .next (s.replied a.part code tag a.reply a.results) := by
  obtain ⟨online, queue, reply⟩ := h
  have link := Part.link_commands (s.part.perform_link { code := code, tag := tag, args := padTo 16 args })
  rw [ha] at link
  have taken : s.part.atCommand code tag args = (s.replied a.part code tag a.reply a.results).part := by
    simp only [Part.atCommand, online, Part.commandArrives, queue, reply, List.isEmpty_nil, Option.isNone_none,
      Bool.and_self, if_true, Part.takeCommand, ha, Answer.place, Part.modCommands, Answer.replyTo, hs, Option.map_none,
      State.replied, plainReply, link]
  rw [taken]; rfl

/-- A command that its owner refuses changes nothing but the reply queue. -/
theorem State.Ready.become_refused {s : State} (h : s.Ready) {code tag : Byte} {args : List Byte} {reply : ReplyCode}
    (ha : s.part.perform { code := code, tag := tag, args := padTo 16 args } = s.part.refuse reply) :
    s.become (s.part.atCommand code tag args) = .next (s.replied s.part code tag reply []) :=
  h.become_command ha rfl

/-- A command that its owner answers with OK and one frame. -/
theorem State.Ready.become_ok {s : State} (h : s.Ready) {code tag : Byte} {args : List Byte} {p : Part} {results : List Byte}
    (ha : s.part.perform { code := code, tag := tag, args := padTo 16 args } = p.ok results) :
    s.become (s.part.atCommand code tag args) = .next (s.replied p code tag .ok results) :=
  h.become_command ha rfl

theorem Part.perform_abort (p : Part) (tag station mode : Byte) :
    p.perform { code := codeAbort, tag := tag, args := padTo 16 [station, mode] } = p.abort station mode := rfl

theorem Part.perform_clearStation (p : Part) (tag station : Byte) :
    p.perform { code := codeClearStation, tag := tag, args := padTo 16 [station] } = p.clearStation station := rfl

theorem Part.perform_snapshot (p : Part) (tag station : Byte) :
    p.perform { code := codeSnapshot, tag := tag, args := padTo 16 [station] } = p.snapshot station := rfl

theorem Part.perform_snapshotRead (p : Part) (tag : Byte) :
    p.perform { code := codeSnapshotRead, tag := tag, args := padTo 16 [] } = p.snapshotRead := rfl

theorem codeStartAxle_toNat (st : Stn) (slot : BitVec 5) : (codeStartAxle st slot).toNat = 128 + 32 * st.val + slot.toNat := by
  have := slot.isLt
  have := st.isLt
  simp only [codeStartAxle, b8, BitVec.toNat_ofNat]
  omega

theorem startStation_code (st : Stn) (slot : BitVec 5) : startStation (codeStartAxle st slot) = st := by
  have := slot.isLt
  have := st.isLt
  apply Fin.ext
  simp only [startStation, codeStartAxle_toNat, Fin.ofNat]
  omega

theorem startSlot_code (st : Stn) (slot : BitVec 5) : startSlot (codeStartAxle st slot) = slot := by
  have := slot.isLt
  have := st.isLt
  apply BitVec.eq_of_toNat_eq
  simp only [startSlot, BitVec.toNat_setWidth, codeStartAxle_toNat]
  omega

/-- Sixteen argument bytes are taken as they are (R197). -/
theorem padTo_length_eq {n : Nat} {bs : List Byte} (h : bs.length = n) : padTo n bs = bs := by
  simp [padTo, ← h]

/-- A START_AXLE code carries its station and its slot (spec/11, 11.2). -/
theorem Part.perform_startAxle (p : Part) (tag : Byte) (st : Stn) (slot : BitVec 5) {serial : Entry} (h : serial.length = 16) :
    p.perform { code := codeStartAxle st slot, tag := tag, args := padTo 16 serial } = p.startAxle st slot serial := by
  unfold Part.perform
  rw [if_pos (by simp only [codeStartAxle_toNat]; omega), startStation_code, startSlot_code, padTo_length_eq h]

/-! ## Station numbers and modes in an argument byte -/

theorem stationOfByte_none {b : Byte} (h : 3 < b.toNat) : stationOfByte b = none := by
  unfold stationOfByte
  generalize b.toNat = n at h ⊢
  match n, h with
  | _ + 4, _ => rfl

@[simp] theorem stationOfByte_val (st : Stn) : stationOfByte (BitVec.ofNat 8 st.val) = some st := by
  revert st; decide

theorem abortMode_none {b : Byte} (h : 1 < b.toNat) : abortMode b = none := by
  unfold abortMode
  generalize b.toNat = n at h ⊢
  match n, h with
  | _ + 2, _ => rfl

/-- The two modes of ABORT: 1 is AT_STEP_END (R12). -/
theorem abortMode_of_le {b : Byte} (h : b.toNat ≤ 1) : abortMode b = some (decide (b = 1)) := by
  have : b = 0 ∨ b = 1 := by
    rcases Nat.le_one_iff_eq_zero_or_eq_one.1 h with h | h
    · exact .inl (BitVec.eq_of_toNat_eq h)
    · exact .inr (BitVec.eq_of_toNat_eq h)
  rcases this with rfl | rfl <;> rfl

end Sys2Proof.Machine
end

section
/-!
SUPPORT. The station commands of the cell controller: refused, cleared, captured, aborted.
-/
namespace Sys2Proof.Machine

open Sys2Proof

/-! ## The station commands answered -/

theorem exec_clearStation (tag station : Byte) (s : State) :
    exec (.clearStation tag station) s = s.become (s.part.atCommand codeClearStation tag [station]) := rfl

theorem exec_snapshot (tag station : Byte) (s : State) :
    exec (.snapshot tag station) s = s.become (s.part.atCommand codeSnapshot tag [station]) := rfl

theorem exec_snapshotRead (tag : Byte) (s : State) :
    exec (.snapshotRead tag) s = s.become (s.part.atCommand codeSnapshotRead tag []) := rfl

theorem exec_abort (tag station mode : Byte) (s : State) :
    exec (.abort tag station mode) s = s.become (s.part.atCommand codeAbort tag [station, mode]) := rfl

theorem exec_startAxle (tag : Byte) (st : Stn) (slot : BitVec 5) {serial : Entry} (h : serial.length = 16) (s : State) :
    exec (.startAxle tag st slot serial) s = s.become (s.part.atCommand (codeStartAxle st slot) tag serial) := by
  have wf : (Instr.startAxle tag st slot serial).wellFormed = true := by simp [Instr.wellFormed, entryFits, h]
  show s.take _ _ = _
  rw [State.take, if_pos wf]

/-! ## CLEAR_STATION -/

theorem Part.clearStation_halted {p : Part} {st : Stn} (h : (p.station.get st).state = .halted) :
    p.clearStation (BitVec.ofNat 8 st.val) = (p.modStation st (fun x => { x with state := .idle })).ok [] := by
  rw [Part.clearStation, stationOfByte_val]; exact if_pos h

theorem Part.clearStation_other {p : Part} {st : Stn} (h : (p.station.get st).state ≠ .halted) :
    p.clearStation (BitVec.ofNat 8 st.val) = p.refuse .notHalted := by
  rw [Part.clearStation, stationOfByte_val]; exact if_neg h

theorem Part.clearStation_badArg (p : Part) {station : Byte} (h : 3 < station.toNat) :
    p.clearStation station = p.refuse .badArg := by
  rw [Part.clearStation, stationOfByte_none h]

/-- Settles O43: by the station number and the station's state. -/
theorem clearsHaltedStation : Obligations.ClearsHaltedStation := by
  unfold Obligations.ClearsHaltedStation
  intro tag s ready
  refine ⟨fun station h => ?_, fun st => ⟨fun h => ?_, fun h => ?_⟩⟩
  · rw [exec_clearStation]
    exact ready.become_refused ((s.part.perform_clearStation tag station).trans (s.part.clearStation_badArg h))
  · rw [exec_clearStation]
    exact ready.become_ok ((s.part.perform_clearStation tag _).trans (Part.clearStation_halted h))
  · rw [exec_clearStation]
    exact ready.become_refused ((s.part.perform_clearStation tag _).trans (Part.clearStation_other h))

/-! ## The snapshot -/

theorem rejected_iff (ls : List CheckLine) : rejected ls = true ↔ ∃ l ∈ ls, l.grade = .must ∧ l.outcome = .fail := by
  simp [rejected]

/-- The record, byte by byte in the places of spec/11, 11.4: each half is 15 bytes and one byte of 0. -/
theorem padTo_halves (a0 a1 a2 a3 b0 b1 c0 c1 d0 d1 d2 e0 e1 f0 f1 g h0 h1 h2 h3 i j : Byte) :
    padTo 16 [a0, a1, a2, a3, b0, b1, c0, c1, d0, d1, d2, e0, e1, f0, f1] ++ padTo 16 [g, h0, h1, h2, h3, i, j] =
      [a0, a1, a2, a3, b0, b1, c0, c1, d0, d1, d2, e0, e1, f0, f1, 0, g, h0, h1, h2, h3, i, j] ++ List.replicate 9 0 := rfl

theorem Part.snapshot_badArg (p : Part) {station : Byte} (h : 3 < station.toNat) : p.snapshot station = p.refuse .badArg := by
  rw [Part.snapshot, stationOfByte_none h]

theorem Part.snapshot_of (p : Part) (st : Stn) :
    p.snapshot (BitVec.ofNat 8 st.val) =
      ({ p with capture := some { station := st, record := p.snapshotRecord st } }).ok ((p.snapshotRecord st).take 15) := by
  rw [Part.snapshot, stationOfByte_val]

theorem Part.latestPressure_eq (p : Part) (st : Stn) :
    p.latestPressure st = match p.roleRecord (some st) .press with
      | some r => r.value.pressure
      | none => 0 := by
  show ((p.roleRecord (some st) .press).map (fun r => r.value.pressure)).getD 0 = _
  cases p.roleRecord (some st) .press <;> rfl

/-- Settles O44: the record of the model is the one of spec/11, 11.4, field by field. -/
theorem snapshotInTwoHalves : Obligations.SnapshotInTwoHalves := by
  unfold Obligations.SnapshotInTwoHalves
  intro tag s ready
  refine ⟨fun station h => ?_, fun st => ?_, fun c h => ?_, fun h => ?_⟩
  · rw [exec_snapshot]
    exact ready.become_refused ((s.part.perform_snapshot tag station).trans (s.part.snapshot_badArg h))
  · intro x e k invalid pressure cycles verdict count record
    have hrecord : s.part.snapshotRecord st = record := by
      have hv : (if rejected (s.part.station.get st).lines = true then 1 else 0) = verdict := by
        simp only [verdict, rejected_iff, x]
      have hp : s.part.latestPressure st = pressure := s.part.latestPressure_eq st
      have hc : s.part.cyclesSinceStart st = cycles := rfl
      have hn (o : LineOutcome) : (s.part.station.get st).lines.countP (fun l => l.outcome = o) = count o :=
        List.countP_eq_length_filter
      unfold Part.snapshotRecord
      dsimp only
      rw [hp, hc, hn, hn, hv]
      exact padTo_halves ..
    rw [exec_snapshot, ← hrecord]
    exact ready.become_ok ((s.part.perform_snapshot tag _).trans (s.part.snapshot_of st))
  · rw [exec_snapshotRead]
    exact ready.become_ok ((s.part.perform_snapshotRead tag).trans (by rw [Part.snapshotRead, h]))
  · rw [exec_snapshotRead]
    exact ready.become_refused ((s.part.perform_snapshotRead tag).trans (by rw [Part.snapshotRead, h]))

/-! ## START_AXLE refused -/

theorem Part.mapped_iff (p : Part) (st : Stn) (r : Role) :
    p.mapped st r = true ↔ ∃ c ∈ p.router.entries, c.entry.owner = roleOwner st r ∧ c.entry.role = r := by
  simp [Part.mapped]

/-- Every role of a list is mapped for the station (R3). -/
theorem Part.all_mapped_iff (p : Part) (st : Stn) (rs : List Role) :
    rs.all (p.mapped st) = true ↔ ∀ r ∈ rs, ∃ c ∈ p.router.entries, c.entry.owner = roleOwner st r ∧ c.entry.role = r := by
  simp only [List.all_eq_true, Part.mapped_iff]

/-- The tests of R1 past the named tables, in their order. -/
theorem Part.startTests_named {p : Part} {st : Stn} {slot : BitVec 5} {n : Named} (hi : (p.station.get st).state = .idle)
    (hn : p.tables.named slot.toNat = some n) :
    p.startTests st slot =
      if idsClash n.ids || n.leakMissing then .error .badVariant
      else if !n.required.all (p.mapped st) then .error .noChannel
      else if p.reports.held.length + p.reports.reservations = 12 then .error .storeFull
      else .ok n := by
  rw [Part.startTests, if_neg (not_not_intro hi), hn]

theorem Part.startAxle_error {p : Part} {st : Stn} {slot : BitVec 5} {code : ReplyCode} (serial : Entry)
    (h : p.startTests st slot = .error code) : p.startAxle st slot serial = p.refuse code := by
  rw [Part.startAxle, h]

/-- Settles O41: each test of R1 that fails gives its reply. -/
theorem startRefused : Obligations.StartRefused := by
  unfold Obligations.StartRefused
  intro tag st slot serial s ready length refused
  have refuse {code : ReplyCode} (h : s.part.startTests st slot = .error code) : refused code := by
    show exec _ _ = _
    rw [exec_startAxle tag st slot length]
    exact ready.become_refused ((s.part.perform_startAxle tag st slot length).trans (Part.startAxle_error serial h))
  refine ⟨fun h => refuse ?_, fun idle => ⟨fun h => refuse ?_, fun n named => ⟨fun h => refuse ?_, fun clash missing =>
    ⟨fun h => refuse ?_, fun mapped full => refuse ?_⟩⟩⟩⟩
  · rw [Part.startTests, if_pos h]
  · rw [Part.startTests, if_neg (not_not_intro idle), h]
  · rw [Part.startTests_named idle named, if_pos (by simpa using h)]
  · have unmapped : n.required.all (s.part.mapped st) = false := by
      obtain ⟨r, hr, none⟩ := h
      rw [← Bool.not_eq_true, Part.all_mapped_iff]
      intro all
      obtain ⟨c, hc, is⟩ := all r hr
      exact none c hc is
    rw [Part.startTests_named idle named, if_neg (by simp [clash, missing]), if_pos (by simp [unmapped])]
  · rw [Part.startTests_named idle named, if_neg (by simp [clash, missing]),
      if_neg (by simp [(s.part.all_mapped_iff st n.required).2 mapped]), if_pos full]

/-! ## ABORT -/

theorem Part.abort_of (p : Part) (st : Stn) {mode : Byte} (h : mode.toNat ≤ 1) :
    p.abort (BitVec.ofNat 8 st.val) mode = p.abortStation st (decide (mode = 1)) := by
  rw [Part.abort, stationOfByte_val, abortMode_of_le h]

theorem Part.abort_badArg (p : Part) {station mode : Byte} (h : 3 < station.toNat ∨ 1 < mode.toNat) :
    p.abort station mode = p.refuse .badArg := by
  unfold Part.abort
  rcases h with h | h
  · rw [stationOfByte_none h]
  · rw [abortMode_none h]; cases stationOfByte station <;> rfl

/-- A station that enters STOPPING (R14): its executor aims at 0 without a pending abort, its leak phase and its job are
given up, and no report is written. -/
structure StopsFrame (p q : Part) (st : Stn) : Prop where
  outer : q.outer = p.outer
  state : (q.station.get st).state = .stopping
  profile : q.profile.get st = { p.profile.get st with pendingAbort := false, remainder := 0, target := 0 }
  collector : (q.collector.get st).state.stopped
  reports : q.reports = p.reports
  leak : p.AirLaw → (q.leak.get st).phase = (p.leak.get st).phase.afterStop

theorem Part.enterStopping_stops (p : Part) (st : Stn) : StopsFrame p (p.enterStopping st) st := by
  unfold Part.enterStopping
  dsimp only
  generalize h : (p.modStation st (fun x => { x with state := .stopping })).modProfile st
    (fun e => { e with pendingAbort := false, remainder := 0, target := 0 }) = p0
  have frame := p0.stopBlocks_frame st
  refine ⟨?_, ?_, ?_, frame.collector, ?_, fun air => ?_⟩
  · rw [frame.outer, ← h]; rfl
  · rw [sameStations_state frame.station, ← h]; simp
  · rw [frame.profile, ← h]; simp
  · rw [frame.reports, ← h]; rfl
  · have air0 : p0.AirLaw := by subst h; exact air
    rw [(frame.air air0).2, ← h]; rfl

theorem Part.abortStation_stops {p : Part} {st : Stn} {atStepEnd : Bool}
    (h : (p.station.get st).state = .prep ∨ (p.station.get st).state = .finishing ∨
      ((p.station.get st).state = .running ∧ atStepEnd = false)) :
    p.abortStation st atStepEnd = (p.enterStopping st).ok [] := by
  unfold Part.abortStation
  rcases h with h | h | ⟨h, rfl⟩ <;> rw [h]
  rfl

/-- Settles O42: by the state of the station and the mode. -/
theorem abortByState : Obligations.AbortByState := by
  unfold Obligations.AbortByState
  intro tag s ready
  refine ⟨fun station mode h => ?_, fun st mode hm => ?_⟩
  · rw [exec_abort]
    exact ready.become_refused ((s.part.perform_abort tag station mode).trans (s.part.abort_badArg h))
  · intro x run
    have handed := (s.part.perform_abort tag (BitVec.ofNat 8 st.val) mode).trans (s.part.abort_of st hm)
    have hrun : run = s.become (s.part.atCommand codeAbort tag [BitVec.ofNat 8 st.val, mode]) := exec_abort tag _ mode s
    refine ⟨fun h => ?_, fun h => ?_, fun h is => ?_, fun h air => ?_⟩
    · rw [hrun]
      refine ready.become_refused (handed.trans ?_)
      unfold Part.abortStation
      rcases h with h | h <;> rw [h]
    · rw [hrun]
      refine ready.become_ok (handed.trans ?_)
      unfold Part.abortStation
      rw [h]
    · rw [hrun]
      refine ready.become_ok (handed.trans ?_)
      unfold Part.abortStation
      subst is
      rw [h]; rfl
    · have stops := s.part.enterStopping_stops st
      have ended : s.part.abortStation st (decide (mode = 1)) = (s.part.enterStopping st).ok [] :=
        Part.abortStation_stops (h.imp_right (Or.imp_right (And.imp_right (fun zero => by subst zero; rfl))))
      have profile {α : Type} (f : Executor → α) := congrArg f stops.profile
      exact ⟨_, hrun.trans (ready.become_ok (handed.trans ended)), stops.state, profile Executor.pendingAbort,
        profile Executor.target, profile Executor.remainder, profile Executor.setpoint, stops.leak air, stops.collector,
        stops.reports, rfl⟩

end Sys2Proof.Machine
end

section
/-!
SUPPORT. The values after a reset, and the ends and halts of a station.
-/
namespace Sys2Proof.Machine

open Sys2Proof

/-! ## Power and reset -/

/-- Every slot of every kind is the reset slot (R168). -/
theorem Tables.reset_slots (k : Kind) : Tables.reset.slots k = List.replicate k.slots Slot.reset := by cases k <;> rfl

theorem Tables.reset_slot (k : Kind) (n : Nat) : Tables.reset.slot k n = Slot.reset := by
  by_cases h : n < k.slots <;> simp [Tables.slot, Tables.reset_slots, h]

/-- Settles O3: both rows put the power-on values in place, POWER_ON with the level of the line. -/
theorem powerOnValues : Obligations.PowerOnValues := by
  unfold Obligations.PowerOnValues
  intro a s
  refine ⟨{ s with part := { Part.powerOn a with resetHeld := s.part.resetHeld } }, { s with part := Part.powerOn a },
    rfl, rfl, rfl, rfl, rfl, rfl, rfl, rfl, rfl, rfl, rfl, rfl, rfl, fun st => ?_, rfl, rfl, fun k n h => ?_, rfl, rfl,
    rfl, rfl, fun n h => ?_⟩
  · simp [Part.powerOn]
  · show (Tables.reset.slots k)[n]? = _
    rw [Tables.reset_slots, List.getElem?_replicate_of_lt h]; rfl
  · show (List.replicate 24 Alert.reset)[n]? = _
    rw [List.getElem?_replicate_of_lt h]; rfl

/-! ## The state after reset -/

section
variable (st : Stn)

@[simp] theorem reset_station : State.reset.part.station.get st = Station.reset := by simp [State.reset, Part.powerOn]
@[simp] theorem reset_tracker : State.reset.part.tracker.get st = Tracker.reset := by simp [State.reset, Part.powerOn]
@[simp] theorem reset_profile : State.reset.part.profile.get st = Executor.reset := by simp [State.reset, Part.powerOn]
@[simp] theorem reset_collector : State.reset.part.collector.get st = Collector.reset := by simp [State.reset, Part.powerOn]
@[simp] theorem reset_leak : State.reset.part.leak.get st = Sequencer.reset := by simp [State.reset, Part.powerOn]
@[simp] theorem reset_activeAt : State.reset.part.activeAt st = false := by
  simp [Part.activeAt, Station.reset, StationState.active]

end

@[simp] theorem reset_manifold : State.reset.part.manifold = Manifold.reset := rfl
@[simp] theorem reset_engine : State.reset.part.engine = Engine.reset := rfl
@[simp] theorem reset_slot (k : Kind) (n : Nat) : State.reset.part.tables.slot k n = Slot.reset := Tables.reset_slot k n

theorem reset_ringLaw : State.reset.part.RingLaw := by unfold Part.RingLaw; decide

theorem reset_storeLaw : State.reset.part.StoreLaw := by unfold Part.StoreLaw; decide

theorem reset_airLaw : State.reset.part.AirLaw := by
  simp [Part.AirLaw, Manifold.reset, Sequencer.reset]

theorem reset_sized : State.reset.part.Sized := by unfold Part.Sized; decide

theorem reset_tableLaw : State.reset.part.TableLaw := by
  refine ⟨fun k n => ?_, fun k n => ?_, fun k n => ?_, fun k n => ?_, fun st => ?_⟩
  · rw [Part.boundCount_zero reset_activeAt, reset_slot]; rfl
  · simp [Slot.reset]
  · rw [reset_slot]
    have loading : State.reset.part.tables.loading = none := rfl
    simp [loading, Slot.reset]
  · simp [Slot.reset]
  · simp

theorem reset_collectorLaw : State.reset.part.CollectorLaw := by
  intro st
  simp [Collector.reset]

theorem reset_quietLaw : State.reset.part.QuietLaw := by
  simp [Part.QuietLaw, Manifold.reset, Collector.reset]

theorem reset_analysisLaw : State.reset.part.AnalysisLaw := by
  simp [Part.AnalysisLaw, Engine.reset, Collector.reset]

theorem reset_speedLaw : State.reset.part.SpeedLaw := by
  intro st
  simp [Executor.reset, Part.ramping, Station.reset]

theorem reset_loopLaw : State.reset.part.LoopLaw := by
  intro st
  simp [Executor.reset, Station.reset]

theorem reset_lineLaw : State.reset.part.LineLaw := by
  intro st
  simp [Station.reset, Sequencer.reset, Phase.testing]

/-- Settles O60: law by law, every station, slot and block being at its reset value. -/
theorem lawsHoldAtReset : Obligations.LawsHoldAtReset :=
  ⟨reset_ringLaw, reset_storeLaw, reset_airLaw, reset_sized, reset_tableLaw, reset_collectorLaw, reset_quietLaw,
    reset_analysisLaw, reset_speedLaw, reset_loopLaw, reset_lineLaw⟩

/-! ## The halts and ends of a station taken by themselves -/

/-- An event of a cycle close is taken while the part is online. -/
theorem State.become_atClose {s : State} (h : s.part.online = true) {f : Part → Part} {q : Part} (hf : f s.part = q) :
    s.become (s.part.atClose f) = .next { s with part := q } := by
  rw [Part.atClose, if_pos h, hf]; rfl

theorem Part.prepTimeout_halts {p : Part} {st : Stn} (hs : (p.station.get st).state = .prep)
    (ht : 2000 ≤ (p.station.get st).prepTimer) (hr : p.prepReady st = false) : p.prepTimeout st = p.halt st .noSignal := by
  have overdue : p.prepOverdue st = true := by simp [Part.prepOverdue, hs, ht]
  rw [Part.prepTimeout, overdue, hr]; rfl

theorem Part.indexTimerExpiry_halts {p : Part} {st : Stn} (hk : (p.tracker.get st).tracking = true)
    (ht : 40000 ≤ (p.tracker.get st).indexTimer) : p.indexTimerExpiry st = p.halt st .encoderLoss := by
  rw [Part.indexTimerExpiry, if_pos (by simp [Tracker.indexExpired, hk, ht])]

theorem Part.stillGatesExpiry_halts {p : Part} {st : Stn} (hk : (p.tracker.get st).tracking = true)
    (ht : 100 ≤ (p.tracker.get st).stillGates) : p.stillGatesExpiry st = p.halt st .encoderLoss := by
  rw [Part.stillGatesExpiry, if_pos (by simp [Tracker.stillExpired, hk, ht])]

/-- A complete gate whose speed exceeds the limit: the gate is closed, and the station halts (R53, R55). -/
theorem Part.speedGateComplete_halts {p : Part} {st : Stn} (hk : (p.tracker.get st).tracking = true)
    (hg : 200 ≤ (p.tracker.get st).gateCount)
    (hv : p.cell.overspeedLimit < (gateSpeed (p.tracker.get st).p (p.tracker.get st).gateSum).natAbs) :
    p.speedGateComplete st =
      (p.modTracker st (fun t => t.closeGate (p.profile.get st).inForce)).halt st .overspeed := by
  have full : (p.tracker.get st).gateFull = true := by simp [Tracker.gateFull, hk, hg]
  rw [Part.speedGateComplete, if_pos full]
  refine if_pos ?_
  simp only [Part.modTracker_tracker, Four.get_set_same, Tracker.closeGate, Tracker.overspeed]
  exact decide_eq_true hv

/-- A halt reads nothing of the station's tracker. -/
theorem Part.HaltedAs.of_modTracker {p q : Part} {st : Stn} {f : Tracker → Tracker} {reason : HaltReason}
    (h : (p.modTracker st f).HaltedAs q st reason) : p.HaltedAs q st reason := h

/-- Settles O18: each limit that is reached is the halt of `Part.halt_as`. -/
theorem stationHalts : Obligations.StationHalts := by
  unfold Obligations.StationHalts
  intro st s online air sized
  obtain ⟨sources, -⟩ := sized
  refine ⟨fun hs ht hr => ?_, fun ha hk ht => ?_, fun ha hk ht => ?_, fun ha hk hg hv => ?_⟩
  · have active : s.part.activeAt st = true := by rw [Part.activeAt, hs]; rfl
    exact ⟨{ s with part := s.part.halt st .noSignal }, State.become_atClose online (Part.prepTimeout_halts hs ht hr),
      s.part.halt_as st .noSignal active air sources⟩
  · exact ⟨{ s with part := s.part.halt st .encoderLoss }, State.become_atClose online (Part.indexTimerExpiry_halts hk ht),
      s.part.halt_as st .encoderLoss ha air sources⟩
  · exact ⟨{ s with part := s.part.halt st .encoderLoss }, State.become_atClose online (Part.stillGatesExpiry_halts hk ht),
      s.part.halt_as st .encoderLoss ha air sources⟩
  · exact ⟨{ s with part := _ }, State.become_atClose online (Part.speedGateComplete_halts hk hg hv),
      Part.HaltedAs.of_modTracker (Part.halt_as _ st .overspeed ha air sources)⟩

/-- The conditions of R10 and R15 at the row, which reads leak phase and collector as they stand. -/
theorem Part.atRest_self {p : Part} {st : Stn} {v : Int} (h0 : (p.profile.get st).setpoint = 0)
    (hv : (p.tracker.get st).speed = some v) (h5 : v.natAbs < 5) (hl : (p.leak.get st).phase = .idle)
    (hc : (p.collector.get st).state ≠ .evaluating) : Part.atRest p p st = true := by
  simp [Part.atRest, h0, hv, h5, hl, hc]

/-- Settles O21: at rest both rows are the end of `Part.endTest_ends`, with their end kind. -/
theorem testEnds : Obligations.TestEnds := by
  unfold Obligations.TestEnds
  intro st v s online sized h0 hv h5 hl hc
  obtain ⟨sources, -⟩ := sized
  have rest := Part.atRest_self h0 hv h5 hl hc
  refine ⟨fun h => ⟨{ s with part := _ }, State.become_atClose online (if_pos ⟨h, rest⟩), s.part.endTest_ends st _ ?_ sources⟩,
    fun h => ⟨{ s with part := _ }, State.become_atClose online (if_pos ⟨h, rest⟩), s.part.endTest_ends st _ ?_ sources⟩⟩
  · split <;> simp
  · simp

end Sys2Proof.Machine
end

section
/-!
SUPPORT. What the commands leave unchanged, command by command.
-/
namespace Sys2Proof.Machine

open Sys2Proof

/-! ## What the commands leave unchanged -/

/-- The blocks of the stations, the engine and the manifold. -/
structure Blocks where
  station : Four Station
  tracker : Four Tracker
  profile : Four Executor
  collector : Four Collector
  leak : Four Sequencer
  engine : Engine
  manifold : Manifold

/-- The blocks of a part that no table, report or status command writes. -/
def Part.blocks (p : Part) : Blocks := ⟨p.station, p.tracker, p.profile, p.collector, p.leak, p.engine, p.manifold⟩

theorem Part.snapshot_blocks (p : Part) (station : Byte) : (p.snapshot station).part.blocks = p.blocks := by
  unfold Part.snapshot
  split <;> rfl

theorem Part.snapshotRead_blocks (p : Part) : p.snapshotRead.part.blocks = p.blocks := by
  unfold Part.snapshotRead
  split <;> rfl

theorem Part.dropMap_blocks (p : Part) (k : Kind) : (p.dropMap k).blocks = p.blocks := by
  unfold Part.dropMap
  split <;> rfl

theorem Part.abandonLoad_blocks (p : Part) (k : Kind) (n : Nat) : (p.abandonLoad k n).blocks = p.blocks := by
  unfold Part.abandonLoad
  split
  · split <;> rfl
  · rfl

theorem Part.beginLoad_blocks (p : Part) (k : Kind) (n count : Nat) : (p.beginLoad k n count).part.blocks = p.blocks := by
  unfold Part.beginLoad
  split
  · rfl
  · exact (Part.dropMap_blocks _ k).trans (p.abandonLoad_blocks k n)

theorem Part.loadBegin_blocks (p : Part) (kind slot count : Byte) : (p.loadBegin kind slot count).part.blocks = p.blocks := by
  unfold Part.loadBegin
  split
  · split
    · exact p.beginLoad_blocks _ _ _
    · rfl
  · rfl

theorem Part.loadEntry_blocks (p : Part) (index : Nat) (content : Entry) :
    (p.loadEntry index content).part.blocks = p.blocks := by
  unfold Part.loadEntry
  split
  · rfl
  · dsimp only
    split <;> rfl

theorem Part.completeLoad_blocks (p : Part) (k : Kind) (n : Nat) : (p.completeLoad k n).part.blocks = p.blocks := by
  unfold Part.completeLoad
  dsimp only [Part.ok]
  split <;> rfl

theorem Part.loadEnd_blocks (p : Part) : p.loadEnd.part.blocks = p.blocks := by
  unfold Part.loadEnd
  split
  · rfl
  · split
    · rfl
    · split
      · exact p.completeLoad_blocks _ _
      · rfl

theorem Part.clearTable_blocks (p : Part) (kind slot : Byte) : (p.clearTable kind slot).part.blocks = p.blocks := by
  unfold Part.clearTable
  split
  · split
    · split
      · rfl
      · exact Part.dropMap_blocks _ _
    · rfl
  · rfl

theorem Part.tableStatus_blocks (p : Part) (kind slot : Byte) : (p.tableStatus kind slot).part.blocks = p.blocks := by
  unfold Part.tableStatus
  split
  · split <;> rfl
  · rfl

theorem Part.fetchReport_blocks (p : Part) (segment : Byte) : (p.fetchReport segment).part.blocks = p.blocks := by
  unfold Part.fetchReport
  split
  · rfl
  · split <;> rfl

theorem Part.releaseReport_blocks (p : Part) (number : BitVec 16) : (p.releaseReport number).part.blocks = p.blocks := by
  unfold Part.releaseReport
  split
  · rfl
  · split <;> rfl

/-- The codes of START_AXLE, ABORT, CLEAR_STATION and PART_RESET (spec/11, 11.2): the commands that write a station's block. -/
def stationCode (code : Byte) : Prop := 0x80 ≤ code.toNat ∨ code.toNat = 6 ∨ code.toNat = 7 ∨ code.toNat = 13

theorem Part.plainCommand_blocks (p : Part) (code : Nat) (args : List Byte) (h : code ≠ 6 ∧ code ≠ 7 ∧ code ≠ 13) :
    (p.plainCommand code args).part.blocks = p.blocks := by
  obtain ⟨not6, not7, not13⟩ := h
  unfold Part.plainCommand
  split
  case h_1 => rfl
  case h_2 => exact p.loadBegin_blocks _ _ _
  case h_3 => exact p.loadEnd_blocks
  case h_4 => exact p.clearTable_blocks _ _
  case h_5 => exact p.tableStatus_blocks _ _
  case h_6 => exact absurd rfl not6
  case h_7 => exact absurd rfl not7
  case h_8 => exact p.snapshot_blocks _
  case h_9 => exact p.snapshotRead_blocks
  case h_10 => rfl
  case h_11 => exact p.fetchReport_blocks _
  case h_12 => exact p.releaseReport_blocks _
  case h_13 => exact absurd rfl not13
  case h_14 => rfl

/-- Every other command leaves the blocks of the stations, whatever its arguments. -/
theorem Part.perform_blocks (p : Part) (c : Command) (h : ¬stationCode c.code) : (p.perform c).part.blocks = p.blocks := by
  unfold stationCode at h
  unfold Part.perform
  rw [if_neg (by omega)]
  split
  · exact p.loadEntry_blocks _ _
  · exact p.plainCommand_blocks _ _ (by omega)

/-- The code of a command of the cell controller (spec/11, 11.2). -/
def commandCode (i : Instr) : Option Byte :=
  match i with
  | .startAxle _ st slot _ => some (codeStartAxle st slot)
  | .abort .. => some codeAbort
  | .clearStation .. => some codeClearStation
  | .snapshot .. => some codeSnapshot
  | .snapshotRead .. => some codeSnapshotRead
  | .loadBegin .. => some codeLoadBegin
  | .loadEntry _ index _ => some (codeLoadEntry index.val)
  | .loadEnd .. => some codeLoadEnd
  | .clearTable .. => some codeClearTable
  | .tableStatus .. => some codeTableStatus
  | .storeStatus .. => some codeStoreStatus
  | .fetchReport .. => some codeFetchReport
  | .releaseReport .. => some codeReleaseReport
  | .ident .. => some codeIdent
  | .partReset .. => some codePartReset
  | .unknownCommand _ code => some code
  | _ => none

/-- The row of a command is the arrival of its code at the command unit (log entry 17). -/
theorem exec_command {i : Instr} {s t : State} (hc : isStationCommand i = true ∨ isStoreCommand i = true)
    (h : exec i s = .next t) :
    i.wellFormed = true ∧ ∃ code tag args, commandCode i = some code ∧ t = { s with part := s.part.atCommand code tag args } := by
  cases i <;> simp only [isStationCommand, isStoreCommand, Bool.false_eq_true, or_self] at hc
  case startAxle => obtain ⟨wf, ht⟩ := State.take_inv h; exact ⟨wf, _, _, _, rfl, ht⟩
  case loadEntry => obtain ⟨wf, ht⟩ := State.take_inv h; exact ⟨wf, _, _, _, rfl, ht⟩
  case unknownCommand => obtain ⟨wf, ht⟩ := State.take_inv h; exact ⟨wf, _, _, _, rfl, ht⟩
  all_goals exact ⟨rfl, _, _, _, rfl, State.become_inv h⟩

theorem codeLoadEntry_toNat (index : Fin 96) : (codeLoadEntry index.val).toNat = 0x20 + index.val := by
  have := index.isLt
  simp only [codeLoadEntry, b8, BitVec.toNat_ofNat]
  omega

/-- No table, report or status command has a code that writes a station's block. -/
theorem not_stationCode {i : Instr} {code : Byte} (hi : isStoreCommand i = true) (hw : i.wellFormed = true)
    (hc : commandCode i = some code) : ¬stationCode code := by
  unfold stationCode
  cases i <;> simp only [isStoreCommand, Bool.false_eq_true] at hi <;> obtain rfl := Option.some.inj hc
  case loadEntry tag index content =>
    have := index.isLt
    rw [codeLoadEntry_toNat]; omega
  case unknownCommand tag code =>
    simp only [Instr.wellFormed, unknownCode, Bool.or_eq_true, beq_iff_eq, Bool.and_eq_true, decide_eq_true_eq] at hw
    rcases hw with rfl | ⟨low, high⟩
    · decide
    · omega
  all_goals decide

/-- Settles O55: the answer of a command keeps the link fields, and that of a table, report or status command the blocks. -/
theorem commandFrames : Obligations.CommandFrames := by
  unfold Obligations.CommandFrames
  intro i s t ready h
  have taken (hc : isStationCommand i = true ∨ isStoreCommand i = true) :
      ∃ c : Command, i.wellFormed = true ∧ commandCode i = some c.code ∧ t = { s with part := (s.part.perform c).place c } := by
    obtain ⟨wf, code, tag, args, hcode, ht⟩ := exec_command hc h
    obtain ⟨online, queue, reply⟩ := ready
    refine ⟨⟨code, tag, padTo 16 args⟩, wf, hcode, ht.trans ?_⟩
    rw [Part.atCommand, if_pos online, Part.commandArrives, queue, reply]; rfl
  refine ⟨fun hc => ?_, fun hc => ?_⟩
  · obtain ⟨c, -, -, rfl⟩ := taken hc
    have link {α : Type} (f : Link → α) := congrArg f (s.part.perform_link c)
    exact ⟨rfl, link Link.resetHeld, link Link.clock, link Link.port, link Link.ringOut⟩
  · obtain ⟨c, wf, code, rfl⟩ := taken (.inr hc)
    have blocks {α : Type} (f : Blocks → α) := congrArg f (s.part.perform_blocks c (not_stationCode hc wf code))
    exact ⟨blocks Blocks.station, blocks Blocks.tracker, blocks Blocks.profile, blocks Blocks.collector, blocks Blocks.leak,
      blocks Blocks.engine, blocks Blocks.manifold⟩

end Sys2Proof.Machine
end

section
/-!
SUPPORT. A START_AXLE that passes all its tests.
-/
namespace Sys2Proof.Machine

open Sys2Proof

/-! ## START_AXLE accepted -/

theorem Part.startTests_ok {p : Part} {st : Stn} {slot : BitVec 5} {n : Named} (hi : (p.station.get st).state = .idle)
    (hn : p.tables.named slot.toNat = some n) (hc : idsClash n.ids = false) (hm : n.leakMissing = false)
    (hr : ∀ r ∈ n.required, ∃ c ∈ p.router.entries, c.entry.owner = roleOwner st r ∧ c.entry.role = r)
    (hs : p.reports.held.length + p.reports.reservations ≠ 12) : p.startTests st slot = .ok n := by
  rw [Part.startTests_named hi hn, if_neg (by simp [hc, hm]), if_neg (by simp [(p.all_mapped_iff st n.required).2 hr]),
    if_neg hs]

/-- Only an evaluation to be discarded is abandoned, and it writes no line: collectors and engine change alone (R111). -/
theorem Part.abandonEvaluation_eq (p : Part) (st : Stn) :
    ∃ c g, p.abandonEvaluation st = { p with collector := c, engine := g } := by
  have take (q : Part) : ∃ g, q.analysisTake = { q with engine := g } := by
    unfold Part.analysisTake
    split <;> exact ⟨_, rfl⟩
  unfold Part.abandonEvaluation
  split
  · next e he =>
    split
    · next hd =>
      unfold Part.evaluationEnd
      simp only [he, hd.2, if_true]
      obtain ⟨g, hg⟩ := take ((p.modEngine (fun g => { g with evaluation := none })).modCollector e.station
        (fun c => { c with state := .off, job := none, report := .none }))
      exact ⟨_, g, hg⟩
    · exact ⟨_, _, rfl⟩
  · exact ⟨_, _, rfl⟩

/-- What an accepted START leaves (R5, R44, R58, R150). -/
structure AcceptFrame (p q : Part) (st : Stn) (slot : BitVec 5) (serial : Entry) (n : Named) : Prop where
  station : q.station =
    p.station.set st ((p.station.get st).start n (p.tables.bind slot.toNat n.variant) serial p.cycleNow)
  tables : q.tables = p.tables.addReferences (p.tables.bind slot.toNat n.variant)
  reports : q.reports = { p.reports with reservations := p.reports.reservations + 1 }
  tracker : q.tracker.get st = Tracker.start (headerP (n.profile.getD 0 []))
  leak : q.leak.get st = { p.leak.get st with detailA := Detail.reset, detailB := Detail.reset }

theorem Part.accept_frame (p : Part) (st : Stn) (slot : BitVec 5) (serial : Entry) (n : Named) :
    AcceptFrame p (p.accept st slot serial n) st slot serial n := by
  obtain ⟨c, g, h⟩ := p.abandonEvaluation_eq st
  unfold Part.accept
  rw [h]
  exact ⟨rfl, rfl, rfl, by simp, by simp⟩

/-! ### The binding and the references (R5, R154) -/

/-- Every table that a START names is READY (R2). -/
theorem Tables.named_ready {t : Tables} {slot : Nat} {n : Named} (h : t.named slot = some n) :
    t.ready .variant slot = true ∧ t.ready .profile n.variant.profile = true ∧ t.readyIfNamed .limit n.variant.limit = true ∧
    t.readyIfNamed .leak n.variant.leakA = true ∧ t.readyIfNamed .leak n.variant.leakB = true := by
  unfold Tables.named at h
  dsimp only at h
  split at h
  · next ready =>
    obtain rfl := Option.some.inj h
    simpa [and_assoc] using ready
  · cases h

theorem Tables.not_empty_of_ready {t : Tables} {k : Kind} {n : Nat} (h : t.ready k n = true) : (t.slot k n).state ≠ .empty := by
  rw [of_decide_eq_true h]; simp

/-- The slot of a reference that a START takes where a table is named is not EMPTY. -/
theorem Tables.ref_not_empty {t : Tables} {k : Kind} {m : Option Nat} (h : t.readyIfNamed k m = true) :
    ∀ x ∈ m.map (t.ref k), (t.slot k x.slot).state ≠ .empty := by
  cases m with
  | none => simp
  | some i =>
    intro x hx
    obtain rfl := Option.some.inj hx
    exact Tables.not_empty_of_ready h

/-- The slots that the binding of an accepted START names are not EMPTY (R2). -/
theorem Tables.bind_not_empty {t : Tables} {slot : Nat} {n : Named} (h : t.named slot = some n) (k : Kind) :
    ∀ r ∈ (t.bind slot n.variant).refs k, ∀ x ∈ r, (t.slot k x.slot).state ≠ .empty := by
  obtain ⟨variant, profile, limit, leakA, leakB⟩ := Tables.named_ready h
  cases k with
  | profile => simpa [Binding.refs, Tables.bind, Tables.ref] using Tables.not_empty_of_ready profile
  | limit => simpa only [Binding.refs, Tables.bind, List.forall_mem_singleton] using Tables.ref_not_empty limit
  | leak =>
    intro r hr
    rcases List.mem_cons.1 hr with rfl | last
    · exact Tables.ref_not_empty leakA
    · obtain rfl := List.mem_singleton.1 last
      exact Tables.ref_not_empty leakB
  | variant => simpa [Binding.refs, Tables.bind, Tables.ref] using Tables.not_empty_of_ready variant
  | map => simp [Binding.refs]
  | cell => simp [Binding.refs]

/-- A slot counts one for each name that the variant gives it. -/
theorem countSlot_some (r : SlotRef) (i : Nat) : countSlot [some r] i = if i = r.slot then 1 else 0 := by
  simp [countSlot, List.countP_cons, eq_comm (a := i)]

theorem countSlot_map_ref (t : Tables) (k : Kind) (m : Option Nat) (i : Nat) :
    countSlot [m.map (t.ref k)] i = if m = some i then 1 else 0 := by
  cases m <;> simp [countSlot, List.countP_cons, Tables.ref]

theorem Tables.bind_mentions (t : Tables) (slot : Nat) (v : Variant) (k : Kind) (i : Nat) :
    (t.bind slot v).mentions k i =
      (if k = .variant ∧ i = slot then 1 else 0) + (if k = .profile ∧ i = v.profile then 1 else 0) +
      (if k = .limit ∧ v.limit = some i then 1 else 0) + (if k = .leak ∧ v.leakA = some i then 1 else 0) +
      (if k = .leak ∧ v.leakB = some i then 1 else 0) := by
  cases k with
  | profile => simp [Binding.mentions, Binding.refs, Tables.bind, countSlot_some, Tables.ref]
  | limit => simp [Binding.mentions, Binding.refs, Tables.bind, countSlot_map_ref]
  | leak =>
    have pair (a b : Option SlotRef) : countSlot [a, b] i = countSlot [a] i + countSlot [b] i :=
      List.countP_append (l₁ := [a]) (l₂ := [b])
    simp [Binding.mentions, Binding.refs, Tables.bind, pair, countSlot_map_ref]
  | variant => simp [Binding.mentions, Binding.refs, Tables.bind, countSlot_some, Tables.ref]
  | map => simp [Binding.mentions, Binding.refs, countSlot]
  | cell => simp [Binding.mentions, Binding.refs, countSlot]

/-! ### The fresh check list (R5, R170) -/

/-- The table entry that gives a line its family, grade and limit (R170). -/
def Named.gives (n : Named) (l : CheckLine) : Prop :=
  (∃ e ∈ n.limits, e.checkId = l.id ∧ l.family = e.family ∧ l.grade = e.grade ∧ l.limit = e.limit) ∨
  (∃ k ∈ torqueChecks n.profile, k.id = l.id ∧ l.family = .torque ∧ l.grade = k.grade ∧ l.limit = k.maximum) ∨
  (∃ r, (n.leakA = some r ∨ n.leakB = some r) ∧ r.checkId = l.id ∧ l.family = .leak ∧ l.grade = r.grade ∧
    l.limit = r.rateLimit)

/-- A line of a START: it carries the id asked for, nothing of it has been measured, and an entry of a named table gives it. -/
theorem Named.line_fresh {n : Named} {id : Nat} {l : CheckLine} (h : n.line id = some l) :
    l.id = id ∧ l = freshLine id l.family l.grade l.limit ∧ n.gives l := by
  unfold Named.line at h
  split at h
  · next e he =>
    obtain rfl := Option.some.inj h
    exact ⟨rfl, rfl, .inl ⟨e, List.mem_of_find?_eq_some he, of_decide_eq_true (List.find?_some he :), rfl, rfl, rfl⟩⟩
  · split at h
    · next k hk =>
      obtain rfl := Option.some.inj h
      exact ⟨rfl, rfl, .inr (.inl ⟨k, List.mem_of_find?_eq_some hk, of_decide_eq_true (List.find?_some hk :), rfl, rfl, rfl⟩)⟩
    · split at h
      · next r hr =>
        obtain rfl := Option.some.inj h
        have leak : n.leakA = some r ∨ n.leakB = some r := by simpa using List.mem_of_find?_eq_some hr
        exact ⟨rfl, rfl, .inr (.inr ⟨r, leak, of_decide_eq_true (List.find?_some hr :), rfl, rfl, rfl⟩)⟩
      · cases h

/-- A line stands for an id exactly when a named table carries it (R170). -/
theorem Named.line_isSome (n : Named) (id : Nat) : (n.line id).isSome = true ↔ ∃ ids ∈ n.ids, id ∈ ids := by
  have carried : (∃ ids ∈ n.ids, id ∈ ids) ↔ (∃ e ∈ n.limits, e.checkId = id) ∨ (∃ k ∈ torqueChecks n.profile, k.id = id) ∨
      ∃ r ∈ n.leakA.toList ++ n.leakB.toList, r.checkId = id := by
    simp only [Named.ids, List.mem_cons, List.not_mem_nil, or_false, exists_eq_left, List.mem_map,
      List.mem_append, or_and_right, exists_or]
    exact or_left_comm
  rw [carried]
  unfold Named.line
  split
  · next e he => exact iff_of_true rfl (.inl ⟨e, List.mem_of_find?_eq_some he, by simpa using List.find?_some he⟩)
  · next none1 =>
    rw [List.find?_eq_none] at none1
    split
    · next k hk => exact iff_of_true rfl (.inr (.inl ⟨k, List.mem_of_find?_eq_some hk, by simpa using List.find?_some hk⟩))
    · next none2 =>
      rw [List.find?_eq_none] at none2
      split
      · next r hr => exact iff_of_true rfl (.inr (.inr ⟨r, List.mem_of_find?_eq_some hr, by simpa using List.find?_some hr⟩))
      · next none3 =>
        rw [List.find?_eq_none] at none3
        refine iff_of_false (by simp) ?_
        rintro (⟨e, he, is⟩ | ⟨k, hk, is⟩ | ⟨r, hr, is⟩)
        · exact none1 e he (by simpa using is)
        · exact none2 k hk (by simpa using is)
        · exact none3 r hr (by simpa using is)

theorem Named.mem_lines {n : Named} {l : CheckLine} : l ∈ n.lines ↔ ∃ id < 64, n.line id = some l := by
  simp [Named.lines]

/-- The check ids of the list ascend. -/
theorem Named.lines_ascend (n : Named) : (n.lines.map CheckLine.id).Pairwise (· < ·) := by
  rw [List.pairwise_map, Named.lines, List.pairwise_filterMap]
  refine List.pairwise_lt_range.imp ?_
  intro a b hab l hl m hm
  rw [(Named.line_fresh hl).1, (Named.line_fresh hm).1]
  exact hab

theorem Named.lines_carry (n : Named) {id : Nat} (h : id < 64) : (∃ l ∈ n.lines, l.id = id) ↔ ∃ ids ∈ n.ids, id ∈ ids := by
  rw [← n.line_isSome id]
  constructor
  · rintro ⟨l, hl, rfl⟩
    obtain ⟨i, -, hi⟩ := Named.mem_lines.1 hl
    rw [(Named.line_fresh hi).1, hi]; rfl
  · intro some
    obtain ⟨l, hl⟩ := Option.isSome_iff_exists.1 some
    exact ⟨l, Named.mem_lines.2 ⟨id, h, hl⟩, (Named.line_fresh hl).1⟩

/-- Settles O40: the tests of R1 all pass, and the START is accepted. -/
theorem startAccepted : Obligations.StartAccepted := by
  unfold Obligations.StartAccepted
  intro tag st slot serial n s ready length idle named clash missing mapped room
  have tests : s.part.startAxle st slot serial = (s.part.accept st slot serial n).ok [] := by
    rw [Part.startAxle, Part.startTests_ok idle named clash missing mapped room]
  have frame := s.part.accept_frame st slot serial n
  generalize s.part.accept st slot serial n = q at tests frame
  have station : q.station.get st =
      (s.part.station.get st).start n (s.part.tables.bind slot.toNat n.variant) serial s.part.cycleNow := by
    rw [frame.station, Four.get_set_same]
  have leak {α : Type} (f : Sequencer → α) := congrArg f frame.leak
  refine ⟨s.replied q (codeStartAxle st slot) tag .ok [], ?_, rfl, ?_, fun st' other => ?_, frame.reports, fun k i => ?_,
    congrArg Tracker.tracking frame.tracker, congrArg Tracker.p frame.tracker,
    leak Sequencer.phase, leak Sequencer.detailA, leak Sequencer.detailB⟩
  · rw [exec_startAxle tag st slot length]
    exact ready.become_ok ((s.part.perform_startAxle tag st slot length).trans tests)
  · intro x
    replace station : x = _ := station
    clear_value x
    subst station
    refine ⟨rfl, rfl, rfl, rfl, rfl, by simp [Station.start], rfl, rfl, rfl, rfl, rfl, rfl, rfl,
      n.lines_ascend,
      fun id h => n.lines_carry h, fun l hl => ?_⟩
    obtain ⟨id, -, hid⟩ := Named.mem_lines.1 hl
    obtain ⟨-, fresh, gives⟩ := Named.line_fresh hid
    refine ⟨?_, ?_, ?_, ?_, ?_, ?_, gives⟩ <;> rw [fresh] <;> rfl
  · show q.station.get st' = _
    rw [frame.station, Four.get_set_other _ _ other]
  · show q.tables.slot k i = _
    rw [frame.tables, Tables.addReferences_slot _ _ _ _ (Tables.bind_not_empty named), Tables.bind_mentions]
    simp only [Slot.counting, Nat.add_assoc]

end Sys2Proof.Machine
end

section
/-!
SUPPORT. A good CYCLE frame that opens a new cycle: what the closes leave to the ring port and the command unit, and the
filling that follows them.
-/
namespace Sys2Proof.Machine

open Sys2Proof

/-! ## The closes and the ring port -/

/-- The works of a close leave the outer fields. -/
theorem Part.works_outer (pre : Part) (order : List Work) (p : Part) : (order.foldl (Part.doWork pre) p).outer = p.outer :=
  foldl_outer _ (fun p w => Part.doWork_outer pre p w) order p

/-- A close changes nothing of the link fields: role values and setpoints in force are formed, and the blocks work. -/
theorem Part.closeCycle_link (p : Part) (order : List Work) : (p.closeCycle order).link = p.link :=
  (Part.link_of_outer (Part.works_outer p.formClose (orderOr order) p.formClose) :)

theorem Part.closeSkipped_commands (n : Nat) : ∀ (o : BitVec 32) (orders : List (List Work)) (p : Part),
    (Part.closeSkipped n o orders p).commands = p.commands := by
  induction n with
  | zero => exact fun _ _ _ => rfl
  | succ n ih =>
    intro o orders p
    exact (ih _ _ _).trans (Part.link_commands (Part.closeCycle_link (p.openCycle (o + 1)) (orders.headD [])) :)

/-- The difference d of R27 between two cycle numbers that differ. -/
theorem cycleDifference_ne_zero {o c : BitVec 32} (h : c ≠ o) : (c - o).toNat ≠ 0 := by
  bv_omega

/-- The open cycle and the skipped ones are closed (R27). -/
def Part.closings (p : Part) (o c : BitVec 32) (orders : List (List Work)) : Part :=
  let p' := p.closeCycle (orders.headD [])
  if (c - o).toNat ≤ 20 then Part.closeSkipped ((c - o).toNat - 1) o (orders.drop 1) p' else p'

theorem Part.closings_commands (p : Part) (o c : BitVec 32) (orders : List (List Work)) :
    (p.closings o c orders).commands = p.commands := by
  have first := Part.link_commands (p.closeCycle_link (orders.headD []))
  unfold Part.closings
  dsimp only
  split
  · exact (Part.closeSkipped_commands _ _ _ _).trans first
  · exact first

/-- With no command waiting a new cycle number closes the cycles before it, opens its own and fills the insertion list. -/
theorem Part.advance_fills {p : Part} {o c : BitVec 32} (h : c ≠ o) (hq : p.commands.queue = []) (orders : List (List Work)) :
    p.advance o c orders = ((p.closings o c orders).openCycle c).fill := by
  rw [Part.advance]
  refine (if_neg (cycleDifference_ne_zero h)).trans (Part.fillAndTake_idle ?_)
  exact (congrArg CommandUnit.queue (p.closings_commands o c orders)).trans hq

theorem Part.cycleArrives_up {p : Part} {o : BitVec 32} (hu : p.port.up = true) (ho : p.port.cycle = some o) (c : BitVec 32)
    (orders : List (List Work)) :
    p.cycleArrives c orders = (p.modPort (fun x => { x with lossTimer := 0 })).advance o c orders := by
  rw [Part.cycleArrives, if_pos hu]
  simp only [Part.modPort_port, ho]

/-! ## The insertion list after a filling -/

theorem Part.setpointFrame_eq (p : Part) (st : Stn) : p.setpointFrame st = p.setpointBy st := by
  unfold Part.setpointFrame Part.setpointPayload Part.setpointBy
  cases (p.station.get st).state <;> rfl

/-- A filling reads no pending flag, no reply and no closing state for a SETPOINT frame, and changes nothing else. -/
theorem Part.fill_setpointFrame (p : Part) (st : Stn) : p.fill.setpointFrame st = p.setpointFrame st := by
  rw [p.fill_eq]; rfl

theorem Part.replyFrames_length (p : Part) (r : Reply) : (p.replyFrames r).length ≤ 2 := by
  unfold Part.replyFrames
  dsimp only
  split <;> simp

/-- The frames of a filling: the SETPOINT frames, then one VALVE_CMD, two REPLY and one ALERT frame at most (R31). -/
theorem Part.insertionFrames_eq (p : Part) : ∃ rest : List Frame, rest.length ≤ 4 ∧
    p.insertionFrames = allStations.filterMap p.setpointFrame ++ rest := by
  unfold Part.insertionFrames
  simp only [List.append_assoc]
  refine ⟨_, ?_, rfl⟩
  simp only [List.length_append]
  refine Nat.add_le_add (b := 1) (d := 3) ?valve (Nat.add_le_add (b := 2) (d := 1) ?reply ?alert)
  case valve => split <;> simp
  case reply =>
    split
    · exact p.replyFrames_length _
    · simp
  case alert => split <;> simp

theorem Part.fill_insertion (p : Part) : ∃ rest : List Frame, rest.length ≤ 4 ∧
    p.fill.port.insertion = allStations.filterMap p.fill.setpointBy ++ rest := by
  have frames : p.fill.port.insertion = p.insertionFrames := by rw [p.fill_eq]
  have setpoints : p.fill.setpointBy = p.setpointFrame := by
    funext st
    rw [← Part.setpointFrame_eq, Part.fill_setpointFrame]
  rw [frames, setpoints]
  exact p.insertionFrames_eq

/-- Settles O16: whatever the closes do, the list is that of the filling which follows them. -/
theorem setpointFrames : Obligations.SetpointFrames := by
  unfold Obligations.SetpointFrames
  intro f us orders s t listening good up queue time new opened h
  obtain ⟨o, ho⟩ := Option.ne_none_iff_exists'.1 opened
  obtain ⟨-, rfl⟩ := State.take_inv h
  have elapsed := Part.elapse_elapsed (us := us) (Part.listening_released listening) (fun _ => .inl time)
  generalize hq : s.part.elapse us = q at elapsed
  have port := elapsed.port
  have up' : (q.arrived f).port.up = true := by simp only [Part.arrived, port, up]
  have ho' : (q.arrived f).port.cycle = some o := by simp only [Part.arrived, port, ho]
  have queue' : (q.arrived f).commands.queue = [] := by simp only [Part.arrived, elapsed.commands, queue]
  have ne : cycleNumber f ≠ o := fun e => new (by rw [ho, e])
  have filled := Part.cycleFrame_good orders listening good hq elapsed.held (by simp only [port])
  rw [Part.cycleArrives_up up' ho', Part.advance_fills ne (by exact queue')] at filled
  show ∃ rest : List Frame, rest.length ≤ 4 ∧ (s.part.cycleFrame .outbound f us orders).port.insertion =
    allStations.filterMap (s.part.cycleFrame .outbound f us orders).setpointBy ++ rest
  rw [filled]
  exact Part.fill_insertion _

end Sys2Proof.Machine
end

section
/-!
SUPPORT. What the works of a close do to one station: those of other stations, and those of its own collector and
sequencer, leave its record and its executor; its own executor leaves it in an active state.
-/
namespace Sys2Proof.Machine

open Sys2Proof

/-! ## The other stations -/

/-- What an operation of station `j` leaves: the outer fields, what the table slots hold, and every other station's record
but for its counters, and its executor. -/
structure Elsewhere (j : Stn) (p q : Part) : Prop where
  outer : q.outer = p.outer
  tables : ∀ k n, (q.tables.slot k n).counting 0 = (p.tables.slot k n).counting 0
  station : ∀ i, i ≠ j → { q.station.get i with counters := (p.station.get i).counters } = p.station.get i
  profile : ∀ i, i ≠ j → q.profile.get i = p.profile.get i

namespace Elsewhere

theorem refl (j : Stn) (p : Part) : Elsewhere j p p := ⟨rfl, fun _ _ => rfl, fun _ _ => rfl, fun _ _ => rfl⟩

theorem trans {j : Stn} {p q r : Part} (h : Elsewhere j p q) (k : Elsewhere j q r) : Elsewhere j p r where
  outer := k.outer.trans h.outer
  tables := fun a n => (k.tables a n).trans (h.tables a n)
  station := fun i hi =>
    (congrArg (fun x : Station => { x with counters := (p.station.get i).counters }) (k.station i hi)).trans (h.station i hi)
  profile := fun i hi => (k.profile i hi).trans (h.profile i hi)

theorem modStation (p : Part) (j : Stn) (f : Station → Station) : Elsewhere j p (p.modStation j f) :=
  ⟨rfl, fun _ _ => rfl, fun i hi => by simp [Four.get_set_other _ _ hi], fun _ _ => rfl⟩

theorem modProfile (p : Part) (j : Stn) (f : Executor → Executor) : Elsewhere j p (p.modProfile j f) :=
  ⟨rfl, fun _ _ => rfl, fun _ _ => rfl, fun i hi => by simp [Four.get_set_other _ _ hi]⟩

theorem modTracker (p : Part) (j : Stn) (f : Tracker → Tracker) : Elsewhere j p (p.modTracker j f) :=
  ⟨rfl, fun _ _ => rfl, fun _ _ => rfl, fun _ _ => rfl⟩

theorem raise (p : Part) (j : Stn) (x : Source) (d n : BitVec 16) : Elsewhere j p (p.raise x d n) :=
  ⟨rfl, fun _ _ => rfl, fun _ _ => rfl, fun _ _ => rfl⟩

theorem gate (j : Stn) {p q : Part} (h : GateFrame p q) : Elsewhere j p q :=
  ⟨h.outer, fun _ _ => by rw [h.tables], fun i _ => (h.station i).1, fun _ _ => by rw [h.profile]⟩

theorem stopBlocks (p : Part) (j : Stn) : Elsewhere j p (p.stopBlocks j) :=
  have h := p.stopBlocks_frame j
  ⟨h.outer, fun _ _ => by rw [h.tables], fun i _ => (h.station i).1, fun _ _ => by rw [h.profile]⟩

theorem endTest (p : Part) (j : Stn) (kind : EndKind) (final : StationState) : Elsewhere j p (p.endTest j kind final) where
  outer := p.endTest_outer j kind final
  tables := fun k n => by
    have written : (p.writeReport j kind).tables = p.tables := by
      unfold Part.writeReport
      obtain ⟨-, -, -, -, -, -, tables⟩ := Part.reportAlerts_leak
        ((p.finishLines j).modReports (fun r => r.append ((p.finishLines j).reportOf j kind))) j kind
        ((p.finishLines j).reportOf j kind).number
      exact tables
    exact ((p.writeReport j kind).releaseTables_counting j k n).trans (by rw [written])
  station := fun i hi => by rw [((p.endTest_frame j kind final).others i hi).1]
  profile := fun i _ => by rw [(p.endTest_frame j kind final).profile]

theorem halt (p : Part) (j : Stn) (reason : HaltReason) : Elsewhere j p (p.halt j reason) := by
  unfold Part.halt
  split
  · exact ((((modProfile p j _).trans (stopBlocks _ j)).trans (modStation _ j _)).trans (endTest _ j .halted .halted)).trans
      (raise _ j _ _ _)
  · exact refl j p

end Elsewhere

/-! ## The collector, the sequencer and the purge -/

/-- What the works of collectors, sequencers and the manifold leave: the outer fields, tables, executors and trackers, and of
every station all but its counters, and the check list of all but the stations in `w`. -/
structure SideFrame (w : List Stn) (p q : Part) : Prop where
  outer : q.outer = p.outer
  tables : q.tables = p.tables
  profile : q.profile = p.profile
  tracker : q.tracker = p.tracker
  station : ∀ i, { q.station.get i with counters := (p.station.get i).counters, lines := (p.station.get i).lines } =
    p.station.get i
  lines : ∀ i, i ∉ w → (q.station.get i).lines = (p.station.get i).lines

namespace SideFrame

variable {w : List Stn}

theorem refl (p : Part) : SideFrame w p p := ⟨rfl, rfl, rfl, rfl, fun _ => rfl, fun _ _ => rfl⟩

theorem trans {p q r : Part} (h : SideFrame w p q) (k : SideFrame w q r) : SideFrame w p r where
  outer := k.outer.trans h.outer
  tables := k.tables.trans h.tables
  profile := k.profile.trans h.profile
  tracker := k.tracker.trans h.tracker
  station := fun i => (congrArg (fun x : Station =>
    { x with counters := (p.station.get i).counters, lines := (p.station.get i).lines }) (k.station i)).trans (h.station i)
  lines := fun i hi => (k.lines i hi).trans (h.lines i hi)

theorem gate {p q : Part} (h : GateFrame p q) : SideFrame w p q where
  outer := h.outer
  tables := h.tables
  profile := h.profile
  tracker := h.tracker
  station := fun i =>
    (congrArg (fun x : Station => { x with lines := (p.station.get i).lines }) (h.station i).1 :)
  lines := fun i _ => sameStations_lines h.station i

theorem modCollector (p : Part) (st : Stn) (f : Collector → Collector) : SideFrame w p (p.modCollector st f) :=
  gate (.modCollector p st f)

theorem modLeak (p : Part) (st : Stn) (f : Sequencer → Sequencer) : SideFrame w p (p.modLeak st f) := gate (.modLeak p st f)

theorem modManifold (p : Part) (f : Manifold → Manifold) : SideFrame w p (p.modManifold f) := gate (.modManifold p f)

theorem gateSettle (p : Part) : SideFrame w p p.gateSettle := gate (.gateSettle p)

theorem raise (p : Part) (x : Source) (d n : BitVec 16) : SideFrame w p (p.raise x d n) :=
  ⟨rfl, rfl, rfl, rfl, fun _ => rfl, fun _ _ => rfl⟩

/-- A change of one station's counters. -/
theorem modCounters (p : Part) (st : Stn) (f : Station → Counters) :
    SideFrame w p (p.modStation st (fun x => { x with counters := f x })) where
  outer := rfl
  tables := rfl
  profile := rfl
  tracker := rfl
  station := fun i => by
    rw [Part.modStation_station, Four.get_set]
    split
    · next h => subst h; rfl
    · rfl
  lines := fun i _ => by
    rw [Part.modStation_station, Four.get_set]
    split
    · next h => subst h; rfl
    · rfl

/-- A line of one station's check list is written. -/
theorem modLine (p : Part) (st : Stn) (id : Nat) (f : CheckLine → CheckLine) : SideFrame [st] p (p.modLine st id f) where
  outer := rfl
  tables := rfl
  profile := rfl
  tracker := rfl
  station := fun i => by
    rw [Part.modLine, Part.modStation_station, Four.get_set]
    split
    · next h => subst h; rfl
    · rfl
  lines := fun i hi => by
    rw [Part.modLine, Part.modStation_station, Four.get_set_other _ _ (by simpa using hi)]

theorem analysisJoin (p : Part) (st : Stn) : SideFrame w p (p.analysisJoin st) := by
  unfold Part.analysisJoin Part.analysisTake
  split
  · exact ⟨rfl, rfl, rfl, rfl, fun _ => rfl, fun _ _ => rfl⟩
  · exact ⟨rfl, rfl, rfl, rfl, fun _ => rfl, fun _ _ => rfl⟩

/-! ### The collector's work at a close -/

theorem windowValid (p : Part) (st : Stn) : SideFrame w p (p.windowValid st) := by
  unfold Part.windowValid
  exact (((modCounters p st _).trans (modCollector _ st _)).trans (modManifold _ _)).trans
    ((analysisJoin _ st).trans (gateSettle _))

theorem windowInvalid (p : Part) (st : Stn) (cause : Cause) : SideFrame w p (p.windowInvalid st cause) :=
  gate (.windowInvalid p st cause)

theorem windowOvertime (p : Part) (st : Stn) : SideFrame w p (p.windowOvertime st) := by
  unfold Part.windowOvertime
  split
  · exact windowInvalid p st _
  · exact refl p

theorem completionTests (st : Stn) (p : Part) : SideFrame w p (Part.completionTests st p) := by
  unfold Part.completionTests
  dsimp only
  split
  · exact windowInvalid p st _
  · split
    · exact windowInvalid p st _
    · exact windowValid p st

theorem angleTests (p : Part) (st : Stn) {after : Part → Part} (h : ∀ q, SideFrame w q (after q)) :
    SideFrame w p (p.angleTests st after) := by
  unfold Part.angleTests
  dsimp only
  split
  · exact windowInvalid p st _
  · split
    · exact windowInvalid p st _
    · exact (modCollector p st _).trans (h _)

theorem windowComplete (p : Part) (st : Stn) : SideFrame w p (p.windowComplete st) := by
  unfold Part.windowComplete
  dsimp only
  split
  · exact (modCollector p st _).trans (angleTests _ st (completionTests st))
  · exact refl p

theorem collect (p : Part) (st : Stn) : SideFrame w p (p.collect st) := by
  unfold Part.collect
  dsimp only
  have placed : SideFrame w p ((p.countWindow st).placeSamples st) := by
    unfold Part.placeSamples Part.countWindow
    exact (modCollector p st _).trans (modCollector _ st _)
  split
  · exact placed.trans (windowComplete _ st)
  · exact placed.trans (angleTests _ st (fun q => windowOvertime q st))

theorem windowStart (p : Part) (st : Stn) : SideFrame w p (p.windowStart st) := by
  unfold Part.windowStart
  dsimp only
  split
  · split
    · exact (modManifold p _).trans (modCollector _ st _)
    · exact modCollector p st _
  · exact refl p

theorem awaitStart (p : Part) (st : Stn) : SideFrame w p (p.awaitStart st) := by
  unfold Part.awaitStart
  dsimp only
  have started : SideFrame w p ((p.countWindow st).windowStart st) := (modCollector p st _).trans (windowStart _ st)
  split
  · exact started.trans (windowOvertime _ st)
  · exact started

theorem collectorSettleEnd (p : Part) (st : Stn) : SideFrame w p (p.collectorSettleEnd st) := by
  unfold Part.collectorSettleEnd
  split
  · exact modCollector p st _
  · exact refl p

theorem collectorWork (pre p : Part) (st : Stn) : SideFrame w p (Part.collectorWork pre p st) := by
  unfold Part.collectorWork
  split
  · exact refl p
  · split
    case h_1 => exact (modCollector p st _).trans (collectorSettleEnd _ st)
    case h_2 => exact awaitStart p st
    case h_3 => exact collect p st
    case h_4 => exact refl p
    case h_5 => exact refl p

/-! ### The sequencer's and the purge's work at a close -/

theorem manifoldTimeout (p : Part) (st : Stn) : SideFrame [st] p (p.manifoldTimeout st) := by
  unfold Part.manifoldTimeout
  dsimp only
  split
  · exact ((modLine p st _ _).trans ((modManifold _ _).trans (modManifold _ _))).trans
      ((modLeak _ st _).trans ((raise _ _ _ _).trans (gateSettle _)))
  · exact refl p

theorem fillTimeout (p : Part) (st : Stn) : SideFrame [st] p (p.fillTimeout st) := by
  unfold Part.fillTimeout
  dsimp only
  split
  · split
    · exact (((modLine p st _ _).trans (modLeak _ st _)).trans ((modLeak _ st _).trans (gate (.endFill _)))).trans
        ((gate (.airNotice _ _)).trans (gateSettle _))
    · exact (((modLine p st _ _).trans (modLeak _ st _)).trans ((modLeak _ st _).trans (gate (.endFill _)))).trans
        ((gate (.defer _ st _)).trans (gateSettle _))
  · exact refl p

theorem leakSettleEnd (p : Part) (st : Stn) : SideFrame w p (p.leakSettleEnd st) := by
  unfold Part.leakSettleEnd
  split
  · exact modLeak p st _
  · exact refl p

theorem measureComplete (p : Part) (st : Stn) : SideFrame [st] p (p.measureComplete st) := by
  unfold Part.measureComplete
  dsimp only
  split
  · exact ((modLine p st _ _).trans (modLeak _ st _)).trans ((gate (.goToVent _ st)).trans (gateSettle _))
  · exact refl p

theorem ventEnd (p : Part) (st : Stn) : SideFrame w p (p.ventEnd st) := by
  unfold Part.ventEnd
  split
  · exact (modLeak p st _).trans (gate (.noteClosed _))
  · exact refl p

theorem leakWork (pre p : Part) (st : Stn) : SideFrame [st] p (Part.leakWork pre p st) := by
  unfold Part.leakWork
  split
  · exact refl p
  · split
    case h_1 => exact (modLeak p st _).trans (manifoldTimeout _ st)
    case h_2 => exact (modLeak p st _).trans (fillTimeout _ st)
    case h_3 => exact (modLeak p st _).trans (leakSettleEnd _ st)
    case h_4 => exact (modLeak p st _).trans (measureComplete _ st)
    case h_5 => exact (modLeak p st _).trans (ventEnd _ st)
    case h_6 => exact refl p
    case h_7 => exact refl p

theorem purgeWork (p : Part) : SideFrame w p p.purgeWork := by
  unfold Part.purgeWork Part.purgeEnd
  split
  · split
    · exact (modManifold p _).trans (((modManifold _ _).trans (gate (.noteClosed _))).trans (gateSettle _))
    · exact modManifold p _
  · exact refl p

end SideFrame

/-! ## The executor -/

/-- What the executor of station `j` leaves: the other stations, and of its own station the required set and its being active. -/
structure Executes (j : Stn) (p q : Part) : Prop where
  elsewhere : Elsewhere j p q
  required : (q.station.get j).required = (p.station.get j).required
  active : p.activeAt j = true → q.activeAt j = true

namespace Executes

variable {st : Stn}

theorem refl (p : Part) : Executes st p p := ⟨.refl st p, rfl, fun h => h⟩

theorem trans {p q r : Part} (h : Executes st p q) (k : Executes st q r) : Executes st p r :=
  ⟨h.elsewhere.trans k.elsewhere, k.required.trans h.required, fun a => k.active (h.active a)⟩

theorem modProfile (p : Part) (f : Executor → Executor) : Executes st p (p.modProfile st f) :=
  ⟨.modProfile p st f, rfl, fun h => h⟩

theorem modStation (p : Part) (f : Station → Station) (hr : ∀ x, (f x).required = x.required := by intro; rfl)
    (ha : ∀ x, x.state.active = true → (f x).state.active = true := by intro _ _; rfl) : Executes st p (p.modStation st f) where
  elsewhere := .modStation p st f
  required := by simp [hr]
  active := fun h => by
    rw [Part.activeAt, Part.modStation_station, Four.get_set_same]
    exact ha _ h

/-- A change of the station that leaves its state and its required set. -/
theorem modRecord (p : Part) (f : Station → Station) (hr : ∀ x, (f x).required = x.required := by intro; rfl)
    (hs : ∀ x, (f x).state = x.state := by intro; rfl) : Executes st p (p.modStation st f) :=
  modStation p f hr (fun x h => by rw [hs]; exact h)

theorem raise (p : Part) (x : Source) (d n : BitVec 16) : Executes st p (p.raise x d n) :=
  ⟨.raise p st x d n, rfl, fun h => h⟩

theorem of_same {p q : Part} (e : Elsewhere st p q) (h : sameStations q.station p.station) : Executes st p q where
  elsewhere := e
  required := (congrArg Station.required (h st).1 :)
  active := fun a => by rw [Part.activeAt, sameStations_state h]; exact a

theorem gate {p q : Part} (h : GateFrame p q) : Executes st p q := of_same (.gate st h) h.station

theorem modCollector (p : Part) (f : Collector → Collector) : Executes st p (p.modCollector st f) := gate (.modCollector p st f)

theorem stopBlocks (p : Part) : Executes st p (p.stopBlocks st) := of_same (.stopBlocks p st) (p.stopBlocks_frame st).station

theorem giveTarget (p : Part) (rpm : Int) : Executes st p (p.giveTarget st rpm) := by
  unfold Part.giveTarget
  dsimp only
  split
  · exact modProfile p _
  · exact ((modProfile p _).trans (modRecord _ _)).trans (raise _ _ _ _)

theorem startRung (p : Part) : Executes st p (p.startRung st) := by
  unfold Part.startRung
  exact (giveTarget p _).trans (modProfile _ _)

theorem beginKind (p : Part) (x : Option Step) : Executes st p (p.beginKind st x) := by
  unfold Part.beginKind
  split
  case h_1 => exact giveTarget p _
  case h_2 => exact modProfile p _
  case h_3 => exact (modProfile p _).trans ((modCollector _ _).trans (startRung _))
  case h_4 => exact modCollector p _
  case h_5 => exact modProfile p _
  case h_6 => exact refl p

theorem beginStep (p : Part) (i : Nat) : Executes st p (p.beginStep st i) := by
  unfold Part.beginStep
  exact (modProfile p _).trans ((modRecord _ _).trans (beginKind _ _))

theorem enterStopping (p : Part) : Executes st p (p.enterStopping st) := by
  unfold Part.enterStopping
  exact (modStation p _).trans ((modProfile _ _).trans (stopBlocks _))

theorem enterFinishing (p : Part) (early : Bool) : Executes st p (p.enterFinishing st early) := by
  unfold Part.enterFinishing
  exact (modStation p _).trans (modProfile _ _)

theorem endStep (p : Part) (next : Nat) : Executes st p (p.endStep st next) := by
  unfold Part.endStep
  split
  · exact enterStopping p
  · exact beginStep p next

theorem endStepNext (p : Part) : Executes st p (p.endStepNext st) := endStep p _

theorem endProfile (p : Part) (early : Bool) : Executes st p (p.endProfile st early) := by
  unfold Part.endProfile
  split
  · exact enterStopping p
  · exact enterFinishing p early

theorem modLine (p : Part) (id : Nat) (f : CheckLine → CheckLine) : Executes st p (p.modLine st id f) :=
  modRecord p _

theorem rampWork (p : Part) (rate : Nat) : Executes st p (p.rampWork st rate) := by
  unfold Part.rampWork Part.rampReached
  dsimp only
  split
  · exact (modProfile p _).trans (endStepNext _)
  · exact modProfile p _

theorem torqueCheck (p : Part) (k : TorqueCheck) : Executes st p (p.torqueCheck st k) := by
  unfold Part.torqueCheck
  dsimp only
  split
  · exact modLine p _ _
  · exact modLine p _ _

theorem holdEnd (p : Part) : Executes st p (p.holdEnd st) := by
  unfold Part.holdEnd
  split
  · split
    · split
      · exact (torqueCheck p _).trans (endStepNext _)
      · exact endStepNext p
    · exact refl p
  · exact refl p

theorem rungDone (p : Part) (up wrap : Bool) : Executes st p (p.rungDone st up wrap) := by
  unfold Part.rungDone
  dsimp only
  split
  · exact endStepNext p
  · exact (modProfile p _).trans (startRung _)

theorem rungDwellDone (p : Part) : Executes st p (p.rungDwellDone st) := by
  unfold Part.rungDwellDone
  split
  · dsimp only
    split
    · exact rungDone p _ _
    · exact refl p
  · exact refl p

theorem rungMeasureDone (p : Part) (report : StepReport) : Executes st p (p.rungMeasureDone st report) := by
  unfold Part.rungMeasureDone
  split
  · dsimp only
    split
    · exact (modProfile p _).trans ((modCollector _ _).trans (rungDone _ _ _))
    · exact refl p
  · exact refl p

theorem rungReached (p : Part) (dwell : Nat) (measure : Bool) : Executes st p (p.rungReached st dwell measure) := by
  unfold Part.rungReached
  dsimp only
  split
  · split
    · exact (modProfile p _).trans (modCollector _ _)
    · exact (modProfile p _).trans (rungDwellDone _)
  · exact refl p

theorem ladderWork (p : Part) (rate dwell : Nat) (measure : Bool) (report : StepReport) :
    Executes st p (p.ladderWork st rate dwell measure report) := by
  unfold Part.ladderWork
  split
  · exact (modProfile p _).trans (rungReached _ _ _)
  · exact (modProfile p _).trans (rungDwellDone _)
  · exact rungMeasureDone p report

theorem noiseStepEnd (p : Part) (report : StepReport) : Executes st p (p.noiseStepEnd st report) := by
  unfold Part.noiseStepEnd
  split
  · split
    · exact (modCollector p _).trans (endStepNext _)
    · exact refl p
  · exact refl p

theorem leakBegin (p : Part) (w : Which) : Executes st p (p.leakBegin st w) :=
  gate (((GateFrame.modLeak p st _).trans (.modManifold _ _)).trans (.gateSettle _))

theorem leakSequenceStart (p : Part) (phase : Phase) : Executes st p (p.leakSequenceStart st phase) := by
  unfold Part.leakSequenceStart
  split
  · split
    · dsimp only
      split
      · exact (leakBegin p _).trans ((modProfile _ _).trans (endStepNext _))
      · exact (leakBegin p _).trans (modProfile _ _)
    · exact refl p
  · exact refl p

theorem waitLeakEnd (p : Part) (phase : Phase) : Executes st p (p.waitLeakEnd st phase) := by
  unfold Part.waitLeakEnd
  split
  · split
    · exact endStepNext p
    · exact refl p
  · split
    · exact endStepNext p
    · exact refl p
  · exact refl p

theorem leakStepWork (p : Part) (phase : Phase) : Executes st p (p.leakStepWork st phase) := by
  unfold Part.leakStepWork
  split
  · exact waitLeakEnd p phase
  · exact leakSequenceStart p phase

theorem repeatWork (p : Part) (count : Nat) : Executes st p (p.repeatWork st count) := by
  unfold Part.repeatWork
  dsimp only
  split
  · exact endStep p _
  · exact (modProfile p _).trans (endStep _ _)

theorem endRepeatWork (p : Part) : Executes st p (p.endRepeatWork st) := by
  unfold Part.endRepeatWork
  split
  · split
    · exact (modProfile p _).trans (endStep _ _)
    · exact (modProfile p _).trans (endStepNext _)
  · exact endStepNext p

theorem exitIfFailedWork (p : Part) : Executes st p (p.exitIfFailedWork st) := by
  unfold Part.exitIfFailedWork
  split
  · split
    · exact (modProfile p _).trans (endStep _ _)
    · exact endStepNext p
  · exact endStepNext p

theorem stopIfRejectedWork (p : Part) : Executes st p (p.stopIfRejectedWork st) := by
  unfold Part.stopIfRejectedWork
  split
  · exact endProfile p true
  · exact endStepNext p

/-- Every kind of step leaves its station active (R60). -/
theorem stepWork (pre p : Part) : Executes st p (Part.stepWork pre p st) := by
  unfold Part.stepWork
  dsimp only
  split
  case h_1 => exact rampWork p _
  case h_2 => exact (modProfile p _).trans (holdEnd _)
  case h_3 => exact ladderWork p _ _ _ _
  case h_4 => exact noiseStepEnd p _
  case h_5 => exact leakStepWork p _
  case h_6 => exact waitLeakEnd p _
  case h_7 => exact repeatWork p _
  case h_8 => exact endRepeatWork p
  case h_9 => exact exitIfFailedWork p
  case h_10 => exact stopIfRejectedWork p
  case h_11 => exact endProfile p false
  case h_12 => exact refl p

theorem profileWork (pre p : Part) : Executes st p (Part.profileWork pre p st) := by
  unfold Part.profileWork
  dsimp only
  have counted : Executes st p (p.modProfile st Executor.countZero) := modProfile p _
  split
  case h_1 => exact counted.trans (stepWork pre _)
  case h_2 => exact counted.trans (modProfile _ _)
  case h_3 => exact counted.trans (modProfile _ _)
  case h_4 => exact counted
  case h_5 => exact counted
  case h_6 => exact counted

end Executes

end Sys2Proof.Machine
end

section
/-!
SUPPORT. The works of a close as one station sees them. Every work but those of its executor and its controller leaves the
station as it is or halts it.
-/
namespace Sys2Proof.Machine

open Sys2Proof

/-! ## The halts of a close -/

/-- The causes for which the works of roles and trackers halt a station at a close (R40, R52, R54, R55). -/
def closeCauses : List HaltReason := [.signalLoss, .encoderLoss, .overspeed]

/-- Halts of one station, none or several in turn, for causes of a close. -/
inductive MayHalt (j : Stn) (p : Part) : Part → Prop where
  | refl : MayHalt j p p
  | halt {q : Part} {reason : HaltReason} (h : MayHalt j p q) (hr : reason ∈ closeCauses) : MayHalt j p (q.halt j reason)

namespace MayHalt

variable {j : Stn} {p q : Part}

/-- A preorder that holds across each such halt holds across them all. -/
theorem relates {R : Part → Part → Prop} (hr : ∀ p, R p p) (ht : ∀ {p q r}, R p q → R q r → R p r)
    (hh : ∀ p, ∀ reason ∈ closeCauses, R p (p.halt j reason)) (h : MayHalt j p q) : R p q := by
  induction h with
  | refl => exact hr p
  | halt _ cause ih => exact ht ih (hh _ _ cause)

theorem haltIf {c : Bool} {reason : HaltReason} (h : MayHalt j p q) (hr : reason ∈ closeCauses) :
    MayHalt j p (if c = true then q.halt j reason else q) := by
  split
  · exact h.halt hr
  · exact h

theorem silenceWork (p : Part) (j : Stn) : MayHalt j p (p.silenceWork j) := haltIf .refl (by decide)

/-- The tracker's reports: the index timer, the overspeed test at a gate, the still gates (R52, R54, R55). -/
theorem trackerReports (p : Part) (j : Stn) (gate : Bool) : MayHalt j p (p.trackerReports j gate) := by
  have timer : MayHalt j p (p.indexTimerExpiry j) := haltIf .refl (by decide)
  unfold Part.trackerReports
  cases gate with
  | true => exact haltIf (haltIf timer (by decide)) (by decide)
  | false => exact haltIf timer (by decide)

end MayHalt

/-! ## The works of the other stations -/

namespace Elsewhere

theorem of_halts {j : Stn} {p q : Part} (h : MayHalt j p q) : Elsewhere j p q :=
  h.relates (refl j) trans (fun p reason _ => halt p j reason)

theorem trackerWork (p : Part) (j : Stn) : Elsewhere j p (p.trackerWork j) := by
  unfold Part.trackerWork
  split
  · exact (modTracker p j _).trans (of_halts (.trackerReports _ j _))
  · exact refl j p

theorem prepToRunning (p : Part) (j : Stn) : Elsewhere j p (p.prepToRunning j) := by
  unfold Part.prepToRunning
  split
  · exact (modStation p j _).trans (Executes.beginStep _ 0).elsewhere
  · exact refl j p

theorem prepTimeout (p : Part) (j : Stn) : Elsewhere j p (p.prepTimeout j) := by
  unfold Part.prepTimeout
  split
  · exact halt p j _
  · exact refl j p

theorem prepWork (p : Part) (j : Stn) : Elsewhere j p (p.prepWork j) := by
  unfold Part.prepWork
  dsimp only
  split
  · exact (modStation p j _).trans (prepToRunning _ j)
  · exact ((modStation p j _).trans (modStation _ j _)).trans (prepTimeout _ j)

theorem controlWork (pre p : Part) (j : Stn) : Elsewhere j p (Part.controlWork pre p j) := by
  unfold Part.controlWork
  dsimp only
  split
  · exact refl j p
  · split
    case h_1 => exact prepWork p j
    case h_2 =>
      unfold Part.finishingEnd
      dsimp only
      split
      · exact endTest p j _ _
      · exact refl j p
    case h_3 =>
      unfold Part.stoppingEnd
      split
      · exact endTest p j _ _
      · exact refl j p
    case h_4 => exact refl j p
    case h_5 => exact refl j p
    case h_6 => exact refl j p

end Elsewhere

/-! ## A station that stays as it is, or halts -/

/-- The station halted at a close for a cause of its roles or its tracker (R40, R52, R54, R55). -/
def Part.HaltedBy (q : Part) (st : Stn) : Prop :=
  (q.station.get st).state = .halted ∧ (q.station.get st).haltReason ∈ closeCauses

theorem Part.HaltedBy.not_active {q : Part} {st : Stn} (h : q.HaltedBy st) : q.activeAt st = false := by
  rw [Part.activeAt, h.1]; rfl

/-- The executor stays, and the station's record but for its counters and, where its lines may be `written`, its check list. -/
structure Stays (st : Stn) (written : Prop) (p q : Part) : Prop where
  profile : q.profile.get st = p.profile.get st
  station : { q.station.get st with counters := (p.station.get st).counters, lines := (p.station.get st).lines } =
    p.station.get st
  lines : ¬written → (q.station.get st).lines = (p.station.get st).lines

namespace Stays

variable {st : Stn} {written : Prop} {p q r : Part}

theorem refl (p : Part) : Stays st written p p := ⟨rfl, rfl, fun _ => rfl⟩

theorem trans (h : Stays st written p q) (k : Stays st written q r) : Stays st written p r where
  profile := k.profile.trans h.profile
  station := (congrArg (fun x : Station =>
    { x with counters := (p.station.get st).counters, lines := (p.station.get st).lines }) k.station).trans h.station
  lines := fun n => (k.lines n).trans (h.lines n)

theorem of_elsewhere {j : Stn} (h : Elsewhere j p q) (hj : st ≠ j) : Stays st written p q where
  profile := h.profile st hj
  station := (congrArg (fun x : Station => { x with lines := (p.station.get st).lines }) (h.station st hj) :)
  lines := fun _ => (congrArg Station.lines (h.station st hj) :)

/-- Fields of the record other than counters and check list stay. -/
theorem field {α : Type} (h : Stays st written p q) (f : Station → α)
    (hf : ∀ x k ls, f { x with counters := k, lines := ls } = f x := by intros; rfl) :
    f (q.station.get st) = f (p.station.get st) :=
  (hf _ _ _).symm.trans (congrArg f h.station)

theorem active (h : Stays st written p q) : q.activeAt st = p.activeAt st :=
  congrArg StationState.active (h.field Station.state)

end Stays

/-- A work that keeps the outer fields, what the table slots hold and the station's required set, and leaves the station as it
is or halts it. -/
structure Rides (st : Stn) (written : Prop) (p q : Part) : Prop where
  outer : q.outer = p.outer
  tables : ∀ k n, (q.tables.slot k n).counting 0 = (p.tables.slot k n).counting 0
  required : (q.station.get st).required = (p.station.get st).required
  fate : Stays st written p q ∨ (p.activeAt st = true ∧ q.HaltedBy st)

namespace Rides

variable {st : Stn} {written : Prop}

theorem refl (p : Part) : Rides st written p p := ⟨rfl, fun _ _ => rfl, rfl, .inl (.refl p)⟩

theorem trans {p q r : Part} (h : Rides st written p q) (k : Rides st written q r) : Rides st written p r where
  outer := k.outer.trans h.outer
  tables := fun a n => (k.tables a n).trans (h.tables a n)
  required := k.required.trans h.required
  fate := by
    rcases h.fate, k.fate with ⟨hs | ⟨ha, hh⟩, ks | ⟨ka, kh⟩⟩
    · exact .inl (hs.trans ks)
    · exact .inr ⟨hs.active.symm.trans ka, kh⟩
    · exact .inr ⟨ha, (ks.field Station.state).trans hh.1, by rw [ks.field Station.haltReason]; exact hh.2⟩
    · exact absurd ka (by simp [hh.not_active])

theorem of_elsewhere {j : Stn} {p q : Part} (h : Elsewhere j p q) (hj : st ≠ j) : Rides st written p q where
  outer := h.outer
  tables := h.tables
  required := (congrArg Station.required (h.station st hj) :)
  fate := .inl (.of_elsewhere h hj)

theorem of_side {w : List Stn} {p q : Part} (h : SideFrame w p q) (hw : st ∈ w → written) : Rides st written p q where
  outer := h.outer
  tables := fun _ _ => by rw [h.tables]
  required := (congrArg Station.required (h.station st) :)
  fate := .inl ⟨by rw [h.profile], h.station st, fun n => h.lines st (fun hm => n (hw hm))⟩

theorem halt (p : Part) {reason : HaltReason} (hr : reason ∈ closeCauses) :
    Rides st written p (p.halt st reason) where
  outer := p.halt_outer st reason
  tables := (Elsewhere.halt p st reason).tables
  required := p.halt_required st st reason
  fate := by
    have frame := p.halt_frame st reason
    cases ha : p.activeAt st with
    | false => rw [frame.spared ha]; exact .inl (.refl p)
    | true =>
      obtain ⟨state, cause, -⟩ := frame.halted ha
      exact .inr ⟨rfl, state, by rw [cause]; exact hr⟩

theorem modTracker (p : Part) (j : Stn) (f : Tracker → Tracker) : Rides st written p (p.modTracker j f) :=
  ⟨rfl, fun _ _ => rfl, rfl, .inl ⟨rfl, rfl, fun _ => rfl⟩⟩

theorem of_halts {p q : Part} (h : MayHalt st p q) : Rides st written p q :=
  h.relates refl trans (fun p _ cause => halt p cause)

theorem trackerWork (p : Part) : Rides st written p (p.trackerWork st) := by
  unfold Part.trackerWork
  split
  · exact (modTracker p st _).trans (of_halts (.trackerReports _ st _))
  · exact refl p

end Rides

/-- The controller does nothing where the close found its station RUNNING or HALTED (R7, R10, R15; log entry 14). -/
theorem Part.controlWork_idle {pre : Part} {st : Stn}
    (h : (pre.station.get st).state = .running ∨ (pre.station.get st).state = .halted) (p : Part) :
    Part.controlWork pre p st = p := by
  unfold Part.controlWork
  dsimp only
  split
  · rfl
  · next same =>
    rw [← Decidable.not_not.1 same]
    rcases h with h | h <;> rw [h]

/-- Every work of a close but those of the station's executor and controller. -/
theorem Part.doWork_rides {st : Stn} {written : Prop} {pre : Part} {w : Work} (hp : w ≠ .profile st)
    (hc : w = .control st → (pre.station.get st).state = .running ∨ (pre.station.get st).state = .halted)
    (hl : w = .leak st → written ∨ (pre.leak.get st).phase = .idle) (p : Part) :
    Rides st written p (Part.doWork pre p w) := by
  cases w with
  | silence j =>
    by_cases h : st = j
    · subst h; exact .of_halts (.silenceWork p st)
    · exact .of_elsewhere (.of_halts (.silenceWork p j)) h
  | tracker j =>
    by_cases h : st = j
    · subst h; exact Rides.trackerWork p
    · exact .of_elsewhere (Elsewhere.trackerWork p j) h
  | profile j =>
    exact .of_elsewhere (Executes.profileWork pre p).elsewhere (fun h => hp (by rw [h]))
  | control j =>
    by_cases h : st = j
    · subst h
      rw [show Part.doWork pre p (.control st) = p from Part.controlWork_idle (hc rfl) p]
      exact .refl p
    · exact .of_elsewhere (Elsewhere.controlWork pre p j) h
  | collector j => exact .of_side (SideFrame.collectorWork (w := []) pre p j) (by simp)
  | leak j =>
    by_cases h : st = j
    · subst h
      rcases hl rfl with hw | idle
      · exact .of_side (SideFrame.leakWork pre p st) (fun _ => hw)
      · rw [show Part.doWork pre p (.leak st) = p from if_pos idle]
        exact .refl p
    · exact .of_side (SideFrame.leakWork pre p j) (fun hm => absurd (List.mem_singleton.1 hm) h)
  | purge => exact .of_side (SideFrame.purgeWork (w := []) p) (by simp)

/-- A relation that each work of a list keeps holds from before the list to after it. -/
theorem works_relate {R : Part → Part → Prop} (hr : ∀ p, R p p) (ht : ∀ {p q r}, R p q → R q r → R p r) {pre : Part}
    {l : List Work} (h : ∀ w ∈ l, ∀ p, R p (Part.doWork pre p w)) (p : Part) : R p (l.foldl (Part.doWork pre) p) := by
  induction l generalizing p with
  | nil => exact hr p
  | cons w rest ih =>
    exact ht (h w List.mem_cons_self p) (ih (fun w hw => h w (List.mem_cons_of_mem _ hw)) _)

/-! ## The order of the works -/

theorem mem_defaultOrder (w : Work) : w ∈ defaultOrder := by
  cases w with
  | silence st => revert st; decide
  | tracker st => revert st; decide
  | profile st => revert st; decide
  | control st => revert st; decide
  | collector st => revert st; decide
  | leak st => revert st; decide
  | purge => decide

/-- An order of a close that fits is legal; the empty one stands for the default, which is legal. -/
theorem legal_orderOr {order : List Work} (h : worksFit order = true) : legalOrder (orderOr order) = true := by
  unfold worksFit at h
  unfold orderOr
  split
  · decide
  · next n => simpa [n] using h

theorem worksFit_headD {orders : List (List Work)} (h : orders.all worksFit = true) : worksFit (orders.headD []) = true := by
  cases orders with
  | nil => rfl
  | cons order rest => exact (List.all_eq_true.1 h) order List.mem_cons_self

theorem legalOrder_count {order : List Work} (h : legalOrder order = true) (w : Work) : order.count w = 1 := by
  simp only [legalOrder, Bool.and_eq_true] at h
  obtain ⟨⟨once, -⟩, -⟩ := h
  simpa using (List.all_eq_true.1 once) w (mem_defaultOrder w)

/-- In a legal order a station's executor works before its controller. -/
theorem legalOrder_before {order : List Work} (h : legalOrder order = true) (st : Stn) :
    before order (.profile st) (.control st) = true := by
  simp only [legalOrder, Bool.and_eq_true] at h
  obtain ⟨-, pairs⟩ := h
  have := (List.all_eq_true.1 pairs) st (mem_allStations st)
  simp only [Bool.and_eq_true] at this
  exact this.2

/-- A legal order at one work: what comes before it and what comes after it do not hold it. -/
theorem legalOrder_split {order : List Work} (h : legalOrder order = true) (w : Work) :
    ∃ l r, order = l ++ w :: r ∧ w ∉ l ∧ w ∉ r := by
  have once := legalOrder_count h w
  obtain ⟨l, r, rfl⟩ := List.append_of_mem (List.count_pos_iff.1 (by omega : 0 < order.count w))
  rw [List.count_append, List.count_cons_self] at once
  exact ⟨l, r, rfl, List.count_eq_zero.1 (by omega), List.count_eq_zero.1 (by omega)⟩

/-- What comes before a work stands to its left. -/
theorem mem_left_of_before {l r : List Work} {a b : Work} (h : before (l ++ b :: r) a b = true) (hb : b ∉ l) : a ∈ l := by
  refine Decidable.byContradiction (fun ha => ?_)
  have lt : (l ++ b :: r).idxOf a < (l ++ b :: r).idxOf b := of_decide_eq_true h
  rw [List.idxOf_append, List.idxOf_append, if_neg ha, if_neg hb, List.idxOf_cons_self] at lt
  omega

end Sys2Proof.Machine
end

section
/-!
SUPPORT. A good CYCLE frame that closes cycles while nothing falls due, and the halt of a station whose role falls silent.
-/
namespace Sys2Proof.Machine

open Sys2Proof

/-! ## A CYCLE frame that closes cycles -/

/-- The part when the closes that a good CYCLE frame brings begin: time has passed, the insertion list and the frame are on the
ring, and the loss timer starts again (R24, R27, R31). -/
def Part.closing (p : Part) (f : Frame) (us : Nat) : Part :=
  ((p.passTime us).arrived f).modPort (fun x => { x with lossTimer := 0 })

theorem Part.closing_commands (p : Part) (f : Frame) (us : Nat) : (p.closing f us).commands = p.commands := rfl

theorem Part.fill_station (p : Part) : p.fill.station = p.station := by rw [p.fill_eq]

theorem Part.fill_profile (p : Part) : p.fill.profile = p.profile := by rw [p.fill_eq]

/-- The frame closes the open cycle and the skipped ones, opens its own, and the insertion list is filled. -/
theorem State.Ticks.runs {s : State} {f : Frame} {us : Nat} {orders : List (List Work)} {o : BitVec 32}
    (h : s.Ticks f us orders o) (hc : cycleNumber f ≠ o) :
    exec (.cycleFrame .outbound f us orders) s = .next { s with part :=
      (((s.part.closing f us).closings o (cycleNumber f) orders).openCycle (cycleNumber f)).fill } := by
  obtain ⟨wf, listening, good, up, cycle, time, calm, queue⟩ := h
  have taken := Part.cycleFrame_calm orders listening good (fun _ => time) calm
  have arrives := Part.cycleArrives_up (p := (s.part.passTime us).arrived f) up cycle (cycleNumber f) orders
  have filled := Part.advance_fills (p := s.part.closing f us) hc queue orders
  have row : exec (.cycleFrame .outbound f us orders) s = s.become (s.part.cycleFrame .outbound f us orders) := if_pos wf
  rw [row, taken, arrives]
  exact congrArg s.become filled

theorem State.Ticks.orders_fit {s : State} {f : Frame} {us : Nat} {orders : List (List Work)} {o : BitVec 32}
    (h : s.Ticks f us orders o) : orders.all worksFit = true := by
  have wf := h.1
  simp only [Instr.wellFormed, Bool.and_eq_true] at wf
  exact wf.2

/-! ## The values that a close forms (R38, R61) -/

theorem Part.formClose_profile (p : Part) (st : Stn) : p.formClose.profile.get st = (p.profile.get st).latch := by
  match st with
  | 0 => rfl
  | 1 => rfl
  | 2 => rfl
  | 3 => rfl

theorem RoleRecord.form_names (r : RoleRecord) (cs : List Channel) : (r.form cs).owner = r.owner ∧ (r.form cs).role = r.role := by
  unfold RoleRecord.form
  split <;> exact ⟨rfl, rfl⟩

/-- The role record that a close forms is that of the role, formed on the entries (R38). -/
theorem Part.formClose_roleRecord (p : Part) (owner : Option Stn) (role : Role) :
    p.formClose.roleRecord owner role = (p.roleRecord owner role).map (fun r => r.form p.router.entries) := by
  show (p.router.roles.map (fun k => k.form p.router.entries)).find? _ = _
  rw [List.find?_map]
  congr 2
  funext r
  simp only [Function.comp, (r.form_names _).1, (r.form_names _).2]

theorem Part.roleRecord_names {p : Part} {owner : Option Stn} {role : Role} {r : RoleRecord}
    (h : p.roleRecord owner role = some r) : r.owner = owner ∧ r.role = role := by
  have := List.find?_some h
  simpa using this

/-- The entry that serves a role in the close, or none (R38). -/
theorem RoleRecord.form_none {r : RoleRecord} {cs : List Channel} (h : serving r.owner r.role cs = none) :
    r.form cs = { r with mark := .missing, missing := satSucc 65535 r.missing, silent := decide (r.missing = 1999) } := by
  rw [RoleRecord.form, h]

theorem RoleRecord.form_some {r : RoleRecord} {cs : List Channel} {x : Sample} (h : serving r.owner r.role cs = some x) :
    r.form cs =
      { r with value := x, mark := if x.overloaded then .overload else .present, missing := 0, silent := false } := by
  rw [RoleRecord.form, h]

/-! ## A station that runs through a close, or halts -/

/-- The executor of a station in PREP or HALTED only counts its zero run (R64). -/
theorem Part.profileWork_resting {pre p : Part} {st : Stn}
    (h : (p.station.get st).state = .prep ∨ (p.station.get st).state = .halted) :
    Part.profileWork pre p st = p.modProfile st Executor.countZero := by
  rw [Part.profileWork]
  rcases h with h | h <;> simp only [Part.modProfile_station, h]

/-- A work keeps the outer fields and the required set, leaves an active station active or halts it, and leaves a HALTED one. -/
structure Runs (st : Stn) (p q : Part) : Prop where
  outer : q.outer = p.outer
  required : (q.station.get st).required = (p.station.get st).required
  active : p.activeAt st = true → q.activeAt st = true ∨ q.HaltedBy st
  halted : (p.station.get st).state = .halted →
    (q.station.get st).state = .halted ∧ (q.station.get st).haltReason = (p.station.get st).haltReason

namespace Runs

variable {st : Stn}

theorem refl (p : Part) : Runs st p p := ⟨rfl, rfl, .inl, fun h => ⟨h, rfl⟩⟩

theorem trans {p q r : Part} (h : Runs st p q) (k : Runs st q r) : Runs st p r where
  outer := k.outer.trans h.outer
  required := k.required.trans h.required
  active := fun a => by
    rcases h.active a with a | ⟨state, cause⟩
    · exact k.active a
    · obtain ⟨state', cause'⟩ := k.halted state
      exact .inr ⟨state', by rw [cause']; exact cause⟩
  halted := fun s => by
    obtain ⟨state, cause⟩ := h.halted s
    obtain ⟨state', cause'⟩ := k.halted state
    exact ⟨state', cause'.trans cause⟩

theorem of_rides {written : Prop} {p q : Part} (h : Rides st written p q) : Runs st p q where
  outer := h.outer
  required := h.required
  active := fun a => h.fate.imp (fun stays => stays.active.trans a) And.right
  halted := fun s => by
    rcases h.fate with stays | ⟨a, -⟩
    · exact ⟨(stays.field Station.state).trans s, stays.field Station.haltReason⟩
    · rw [Part.activeAt, s] at a
      exact absurd a (by decide)

theorem profileWork (pre p : Part) : Runs st p (Part.profileWork pre p st) := by
  have work := Executes.profileWork (st := st) pre p
  refine ⟨work.elsewhere.outer, work.required, fun a => .inl (work.active a), fun s => ?_⟩
  rw [Part.profileWork_resting (.inr s)]
  exact ⟨s, rfl⟩

theorem doWork {pre : Part} (h : (pre.station.get st).state = .running ∨ (pre.station.get st).state = .halted) (w : Work)
    (p : Part) : Runs st p (Part.doWork pre p w) := by
  by_cases hw : w = .profile st
  · subst hw; exact profileWork pre p
  · exact of_rides (written := True) (Part.doWork_rides hw (fun _ => h) (fun _ => .inl trivial) p)

theorem works {pre : Part} (h : (pre.station.get st).state = .running ∨ (pre.station.get st).state = .halted)
    (l : List Work) (p : Part) : Runs st p (l.foldl (Part.doWork pre) p) :=
  works_relate refl trans (fun w _ p => doWork h w p) p

end Runs

/-- A HALTED station stays HALTED for its reason through the closes that a CYCLE frame brings. -/
theorem Part.closeCycle_halted {p : Part} {st : Stn} (h : (p.station.get st).state = .halted) (order : List Work) :
    ((p.closeCycle order).station.get st).state = .halted ∧
    ((p.closeCycle order).station.get st).haltReason = (p.station.get st).haltReason :=
  (Runs.works (pre := p.formClose) (.inr h) (orderOr order) p.formClose).halted h

theorem Part.closeSkipped_halted {st : Stn} (n : Nat) : ∀ (o : BitVec 32) (orders : List (List Work)) (p : Part),
    (p.station.get st).state = .halted →
    ((Part.closeSkipped n o orders p).station.get st).state = .halted ∧
    ((Part.closeSkipped n o orders p).station.get st).haltReason = (p.station.get st).haltReason := by
  induction n with
  | zero => exact fun _ _ _ h => ⟨h, rfl⟩
  | succ n ih =>
    intro o orders p h
    obtain ⟨state, cause⟩ := Part.closeCycle_halted (p := p.openCycle (o + 1)) h (orders.headD [])
    obtain ⟨state', cause'⟩ := ih (o + 1) (orders.drop 1) _ state
    exact ⟨state', cause'.trans cause⟩

theorem Part.closings_halted {p : Part} {st : Stn} {orders : List (List Work)}
    (h : ((p.closeCycle (orders.headD [])).station.get st).state = .halted) (o c : BitVec 32) :
    ((p.closings o c orders).station.get st).state = .halted ∧ ((p.closings o c orders).station.get st).haltReason =
      ((p.closeCycle (orders.headD [])).station.get st).haltReason := by
  unfold Part.closings
  dsimp only
  split
  · exact Part.closeSkipped_halted _ _ _ _ h
  · exact ⟨h, rfl⟩

/-! ## Silence (R40) -/

/-- The close at which a required role's missing count becomes 2,000 reports its silence to the station. -/
theorem Part.formClose_silent {p : Part} {st : Stn} {role : Role} {r : RoleRecord}
    (hr : p.roleAt st role = some r) (hm : r.missing = 1999) (hs : serving r.owner r.role p.router.entries = none) :
    ∃ k ∈ p.formClose.router.roles, k.silent = true ∧ k.owner = roleOwner st k.role ∧ k.role = role := by
  have formed : p.formClose.roleAt st role = some (r.form p.router.entries) := by
    rw [Part.roleAt, Part.formClose_roleRecord]
    exact congrArg (Option.map _) hr
  obtain ⟨owner, is⟩ := Part.roleRecord_names formed
  refine ⟨_, List.mem_of_find?_eq_some formed, ?_, by rw [is]; exact owner, is⟩
  rw [RoleRecord.form_none hs, hm]; rfl

/-- A silent role of the required set halts its station (R40). -/
theorem Part.silenceWork_halts {p : Part} {st : Stn} {k : RoleRecord} (hk : k ∈ p.router.roles) (hs : k.silent = true)
    (ho : k.owner = roleOwner st k.role) (hr : k.role ∈ (p.station.get st).required) :
    p.silenceWork st = p.halt st .signalLoss := by
  have silent : p.silenceAt st = true :=
    List.any_eq_true.2 ⟨k, hk, by rw [hs, decide_eq_true ho, decide_eq_true hr]; rfl⟩
  rw [Part.silenceWork, if_pos silent]

/-- The default order begins with the silence reports, those of the lower-numbered stations first. -/
theorem defaultOrder_silence (st : Stn) :
    ∃ l r, defaultOrder = l ++ .silence st :: r ∧ ∀ w ∈ l, ∃ j, st ≠ j ∧ w = .silence j := by
  match st with
  | 0 => exact ⟨[], _, rfl, by simp⟩
  | 1 => exact ⟨[.silence 0], _, rfl, by simp⟩
  | 2 => exact ⟨[.silence 0, .silence 1], _, rfl, by simp⟩
  | 3 => exact ⟨[.silence 0, .silence 1, .silence 2], _, rfl, by simp⟩

/-- The works up to a RUNNING station's silence report leave it active or HALTED, and the report then leaves it HALTED. -/
theorem Part.works_silence {pre : Part} {st : Stn} (hrun : (pre.station.get st).state = .running) {k : RoleRecord}
    (hk : k ∈ pre.router.roles) (hs : k.silent = true) (ho : k.owner = roleOwner st k.role)
    (hreq : k.role ∈ (pre.station.get st).required) (l r : List Work) :
    ((l ++ .silence st :: r).foldl (Part.doWork pre) pre).HaltedBy st ∧
    ((l.foldl (Part.doWork pre) pre).activeAt st = true →
      (((l ++ .silence st :: r).foldl (Part.doWork pre) pre).station.get st).haltReason = .signalLoss) := by
  have upto := Runs.works (.inl hrun) l pre
  rw [List.foldl_append, List.foldl_cons]
  generalize l.foldl (Part.doWork pre) pre = q at upto ⊢
  have report : Part.doWork pre q (.silence st) = q.halt st .signalLoss :=
    Part.silenceWork_halts (by rw [Part.outer_router upto.outer]; exact hk) hs ho (by rw [upto.required]; exact hreq)
  rw [report]
  have after := Runs.works (.inl hrun) r (q.halt st .signalLoss)
  have active : pre.activeAt st = true := by rw [Part.activeAt, hrun]; rfl
  rcases upto.active active with a | ⟨state, cause⟩
  · obtain ⟨state, cause, -⟩ := (q.halt_frame st .signalLoss).halted a
    obtain ⟨state', cause'⟩ := after.halted state
    exact ⟨⟨state', by rw [cause', cause]; decide⟩, fun _ => cause'.trans cause⟩
  · have inactive : q.activeAt st = false := Part.HaltedBy.not_active ⟨state, cause⟩
    rw [(q.halt_frame st .signalLoss).spared inactive] at after ⊢
    obtain ⟨state', cause'⟩ := after.halted state
    exact ⟨⟨state', by rw [cause']; exact cause⟩, fun a => absurd a (by simp [inactive])⟩

/-- The close that takes the missing count of a RUNNING station's required role to 2,000 (R16, R40). -/
theorem Part.closeCycle_silences {p : Part} {st : Stn} {role : Role} {r : RoleRecord} {order : List Work}
    (hrun : (p.station.get st).state = .running) (hreq : role ∈ (p.station.get st).required)
    (hr : p.roleAt st role = some r) (hm : r.missing = 1999) (hs : serving r.owner r.role p.router.entries = none)
    (hw : worksFit order = true) :
    (p.closeCycle order).HaltedBy st ∧
    (order = [] → ((p.closeCycle order).station.get st).haltReason = .signalLoss) := by
  obtain ⟨k, hk, silent, owner, rfl⟩ := Part.formClose_silent hr hm hs
  have halts := Part.works_silence (pre := p.formClose) hrun hk silent owner hreq
  refine ⟨?_, fun empty => ?_⟩
  · obtain ⟨before, after, split, -⟩ := legalOrder_split (legal_orderOr hw) (.silence st)
    have := (halts before after).1
    rw [← split] at this
    exact this
  · subst empty
    obtain ⟨before, after, split, others⟩ := defaultOrder_silence st
    have spared : Stays st True p.formClose (before.foldl (Part.doWork p.formClose) p.formClose) := by
      refine works_relate Stays.refl Stays.trans (fun w hw q => ?_) _
      obtain ⟨j, hj, rfl⟩ := others w hw
      exact .of_elsewhere (.of_halts (.silenceWork q j)) hj
    have active : p.formClose.activeAt st = true := congrArg StationState.active hrun
    have cause := (halts before after).2 (spared.active.trans active)
    rw [← split] at cause
    exact cause

/-! ## SIGNAL_LOSS by itself -/

theorem exec_signalLoss {owner : Option Stn} {role : Role} {order : List Stn} {s : State}
    (hw : (Instr.signalLoss owner role order).wellFormed = true) (ho : s.part.online = true) :
    exec (.signalLoss owner role order) s = .next { s with part := s.part.signalLoss owner role order } := by
  show s.take _ _ = _
  rw [State.take, if_pos hw]
  exact State.become_atClose ho rfl

/-- The halts of a role whose missing count stands at 2,000 (R16, R40). -/
theorem Part.signalLoss_frame {p : Part} {owner : Option Stn} {role : Role} {r : RoleRecord} (order : List Stn)
    (hr : p.roleRecord owner role = some r) (hm : r.missing = 2000) :
    HaltsFrame p (p.signalLoss owner role order) (stationOrder order)
      (fun st => owner = roleOwner st role ∧ role ∈ (p.station.get st).required) .signalLoss := by
  have named : p.signalLoss owner role order = (stationOrder order).foldl (fun q st =>
      if decide (owner = roleOwner st role ∧ role ∈ (q.station.get st).required) = true then q.halt st .signalLoss else q) p := by
    simp only [Part.signalLoss, hr, if_pos hm, decide_eq_true_eq]
  rw [named]
  exact Part.halts_frame _ _ _ _ p (fun q hq st => by rw [decide_eq_true_eq, hq st])

/-- Settles O12: the row by the halts in turn, the close by the silence report among its works. -/
theorem signalLossHalts : Obligations.SignalLossHalts := by
  unfold Obligations.SignalLossHalts
  refine ⟨fun owner role order r s wf online hr => ⟨fun other => ?_, fun count => ?_⟩,
    fun f us orders o st role r s ticks new hrun hreq hr hm hs => ?_⟩
  · rw [exec_signalLoss wf online, Part.signalLoss, hr]
    simp only [if_neg other]
  · have frame := Part.signalLoss_frame order hr count
    refine ⟨_, exec_signalLoss wf online, fun st => ⟨fun ⟨active, named⟩ => ?_, fun spared => ?_⟩⟩
    · obtain ⟨state, cause, -, report⟩ := frame.halted st (mem_stationOrder order st) named active
      exact ⟨state, cause, report⟩
    · exact (frame.spared st (fun ⟨_, named, active⟩ => spared ⟨active, named⟩)).1
  · have first := Part.closeCycle_silences (p := s.part.closing f us) hrun hreq hr hm hs (worksFit_headD ticks.orders_fit)
    have later := Part.closings_halted first.1.1 o (cycleNumber f)
    refine ⟨_, ticks.runs new, ?_⟩
    show ((Part.fill _).station.get st).state = _ ∧ (_ → ((Part.fill _).station.get st).haltReason = _) ∧
      ((Part.fill _).station.get st).haltReason ∈ closeCauses
    rw [Part.fill_station]
    refine ⟨later.1, fun empty => later.2.trans (first.2 (by rw [empty]; rfl)), ?_⟩
    exact (congrArg (· ∈ closeCauses) later.2).mpr first.1.2

end Sys2Proof.Machine
end

section
/-!
SUPPORT. How a step is begun and ended: what the executor and its station show of it.
-/
namespace Sys2Proof.Machine

open Sys2Proof

/-! ## Beginning a step (R59) -/

/-- What the kind-specific actions at a step's begin leave of the station and its executor, and of the other stations
(R65 to R73). -/
structure Begins (st : Stn) (p q : Part) : Prop where
  state : (q.station.get st).state = (p.station.get st).state
  steps : (q.station.get st).counters.steps = (p.station.get st).counters.steps
  lines : (q.station.get st).lines = (p.station.get st).lines
  step : (q.profile.get st).step = (p.profile.get st).step
  stepTimer : (q.profile.get st).stepTimer = (p.profile.get st).stepTimer
  setpoint : (q.profile.get st).setpoint = (p.profile.get st).setpoint
  loops : (q.profile.get st).loops = (p.profile.get st).loops
  remainder : (p.profile.get st).remainder = 0 → (q.profile.get st).remainder = 0
  others : ∀ i, i ≠ st → q.station.get i = p.station.get i ∧ q.profile.get i = p.profile.get i

namespace Begins

variable {st : Stn}

theorem refl (p : Part) : Begins st p p := ⟨rfl, rfl, rfl, rfl, rfl, rfl, rfl, id, fun _ _ => ⟨rfl, rfl⟩⟩

theorem trans {p q r : Part} (h : Begins st p q) (k : Begins st q r) : Begins st p r :=
  ⟨k.state.trans h.state, k.steps.trans h.steps, k.lines.trans h.lines, k.step.trans h.step, k.stepTimer.trans h.stepTimer,
    k.setpoint.trans h.setpoint, k.loops.trans h.loops, fun z => k.remainder (h.remainder z),
    fun i hi => ⟨(k.others i hi).1.trans (h.others i hi).1, (k.others i hi).2.trans (h.others i hi).2⟩⟩

/-- A change of the executor's other fields. -/
theorem modProfile (p : Part) (f : Executor → Executor)
    (hf : ∀ e, (f e).step = e.step ∧ (f e).stepTimer = e.stepTimer ∧ (f e).setpoint = e.setpoint ∧ (f e).loops = e.loops ∧
      (e.remainder = 0 → (f e).remainder = 0) := by intro; exact ⟨rfl, rfl, rfl, rfl, id⟩) :
    Begins st p (p.modProfile st f) := by
  obtain ⟨step, timer, setpoint, loops, remainder⟩ := hf (p.profile.get st)
  have executor : (p.modProfile st f).profile.get st = f (p.profile.get st) := by simp
  exact ⟨rfl, rfl, rfl, by rw [executor, step], by rw [executor, timer], by rw [executor, setpoint], by rw [executor, loops],
    fun z => by rw [executor]; exact remainder z, fun i hi => ⟨rfl, by simp [Four.get_set_other _ _ hi]⟩⟩

theorem modCollector (p : Part) (f : Collector → Collector) : Begins st p (p.modCollector st f) :=
  ⟨rfl, rfl, rfl, rfl, rfl, rfl, rfl, id, fun _ _ => ⟨rfl, rfl⟩⟩

/-- A ramp is given a target; a clamped one marks the station (R62). -/
theorem giveTarget (p : Part) (rpm : Int) : Begins st p (p.giveTarget st rpm) := by
  unfold Part.giveTarget
  dsimp only
  have aimed := modProfile (st := st) p (fun e => { e with target := effectiveTarget p.cell.ceiling rpm })
  split
  · exact aimed
  · refine aimed.trans ⟨?_, ?_, ?_, rfl, rfl, rfl, rfl, id, fun i hi => ⟨?_, rfl⟩⟩
    case refine_4 => simp [Four.get_set_other _ _ hi]
    all_goals simp

theorem startRung (p : Part) : Begins st p (p.startRung st) := by
  unfold Part.startRung
  exact (giveTarget p _).trans (modProfile _ _ (fun _ => ⟨rfl, rfl, rfl, rfl, fun _ => rfl⟩))

theorem beginKind (p : Part) (x : Option Step) : Begins st p (p.beginKind st x) := by
  unfold Part.beginKind
  split
  case h_1 => exact giveTarget p _
  case h_2 => exact modProfile p _
  case h_3 => exact (modProfile p _).trans ((modCollector _ _).trans (startRung _))
  case h_4 => exact modCollector p _
  case h_5 => exact modProfile p _
  case h_6 => exact refl p

end Begins

/-- A step that was begun (R59). -/
structure BeginsStep (st : Stn) (p q : Part) (i : Nat) : Prop where
  state : (q.station.get st).state = (p.station.get st).state
  steps : (q.station.get st).counters.steps = satSucc 65535 (p.station.get st).counters.steps
  lines : (q.station.get st).lines = (p.station.get st).lines
  step : (q.profile.get st).step = i
  stepTimer : (q.profile.get st).stepTimer = 0
  remainder : (q.profile.get st).remainder = 0
  setpoint : (q.profile.get st).setpoint = (p.profile.get st).setpoint
  loops : (q.profile.get st).loops = (p.profile.get st).loops
  others : ∀ i, i ≠ st → q.station.get i = p.station.get i ∧ q.profile.get i = p.profile.get i

theorem Part.beginStep_begins (p : Part) (st : Stn) (i : Nat) : BeginsStep st p (p.beginStep st i) i := by
  unfold Part.beginStep
  dsimp only
  generalize hq : Part.modStation _ st _ = q
  have kind := Begins.beginKind (st := st) q (profileStep (p.profileTable st) i)
  have station : q.station.get st = { p.station.get st with
      counters := { (p.station.get st).counters with steps := bump (p.station.get st).counters.steps } } := by
    subst hq; simp
  have executor : q.profile.get st = { p.profile.get st with
      step := i, stepTimer := 0, remainder := 0
      torqueLimit := ((profileStep (p.profileTable st) i).bind Step.torqueLimit).getD (p.profile.get st).torqueLimit } := by
    subst hq; simp
  exact
    { state := kind.state.trans (by rw [station])
      steps := kind.steps.trans (by rw [station]; rfl)
      lines := kind.lines.trans (by rw [station])
      step := kind.step.trans (by rw [executor])
      stepTimer := kind.stepTimer.trans (by rw [executor])
      remainder := kind.remainder (by rw [executor])
      setpoint := kind.setpoint.trans (by rw [executor])
      loops := kind.loops.trans (by rw [executor])
      others := fun i hi => by
        obtain ⟨station, executor⟩ := kind.others i hi
        subst hq
        exact ⟨station.trans (by simp [Four.get_set_other _ _ hi]), executor.trans (by simp [Four.get_set_other _ _ hi])⟩ }

/-! ## Ending a step (R13, R60) -/

theorem Part.enterStopping_lines (p : Part) (st : Stn) :
    ((p.enterStopping st).station.get st).lines = (p.station.get st).lines := by
  unfold Part.enterStopping
  dsimp only
  refine (sameStations_lines (Part.stopBlocks_frame _ st).station st).trans ?_
  simp

/-- The end of a RUNNING station's step: the next one is begun, or the pending abort takes effect; the setpoint and the check
list stay, and without a pending abort the loop stack. -/
structure EndsStep (st : Stn) (p q : Part) (next : Nat) : Prop where
  ended : p.StepEnded q st next
  setpoint : (q.profile.get st).setpoint = (p.profile.get st).setpoint
  lines : (q.station.get st).lines = (p.station.get st).lines
  loops : (p.profile.get st).pendingAbort = false → (q.profile.get st).loops = (p.profile.get st).loops

theorem Part.endStep_ends {p : Part} {st : Stn} (h : (p.station.get st).state = .running) (next : Nat) :
    EndsStep st p (p.endStep st next) next := by
  unfold Part.endStep
  cases pending : (p.profile.get st).pendingAbort with
  | true =>
    rw [if_pos rfl]
    have stops := p.enterStopping_stops st
    have executor {α : Type} (f : Executor → α) := congrArg f stops.profile
    refine ⟨?_, executor Executor.setpoint, p.enterStopping_lines st, fun none => by rw [pending] at none; cases none⟩
    rw [Part.StepEnded, if_pos pending]
    exact ⟨stops.state, executor Executor.pendingAbort, executor Executor.target, executor Executor.remainder⟩
  | false =>
    rw [if_neg (by simp)]
    have begun := p.beginStep_begins st next
    refine ⟨?_, begun.setpoint, begun.lines, fun _ => begun.loops⟩
    rw [Part.StepEnded, if_neg (by simp [pending])]
    exact ⟨begun.state.trans h, begun.step, begun.stepTimer, begun.remainder, begun.steps⟩

/-- The end of a step reads the pending abort and the count of steps begun alone. -/
theorem Part.StepEnded.congr {p p' q : Part} {st : Stn} {next : Nat} (h : p'.StepEnded q st next)
    (ha : (p'.profile.get st).pendingAbort = (p.profile.get st).pendingAbort)
    (hs : (p'.station.get st).counters.steps = (p.station.get st).counters.steps) : p.StepEnded q st next := by
  unfold Part.StepEnded at h ⊢
  rw [← ha, ← hs]
  exact h

/-- At a close the step turned into the next one. -/
theorem Part.StepEnded.turned {p q : Part} {st : Stn} {next : Nat} (h : p.StepEnded q st next) : p.StepTurned q st next := by
  unfold Part.StepEnded at h
  unfold Part.StepTurned
  dsimp only
  split
  · next pending => rw [if_pos pending] at h; exact h
  · next none =>
    rw [if_neg none] at h
    obtain ⟨state, step, timer, remainder, -⟩ := h
    exact ⟨state, step, timer, remainder⟩

/-- The end of a profile (R9, R60, R78, R79). -/
theorem Part.endProfile_ends (p : Part) (st : Stn) (early : Bool) : p.ProfileEnded (p.endProfile st early) st early := by
  unfold Part.endProfile Part.ProfileEnded
  dsimp only
  cases (p.profile.get st).pendingAbort with
  | true =>
    have stops := p.enterStopping_stops st
    have executor {α : Type} (f : Executor → α) := congrArg f stops.profile
    exact ⟨executor Executor.target, executor Executor.remainder, executor Executor.step, executor Executor.setpoint,
      stops.state, executor Executor.pendingAbort⟩
  | false =>
    unfold Part.enterFinishing
    simp

/-! ## The rows that end a step -/

/-- A rung that ends its ladder: no move is left, or it stands at a boundary in STOP mode (R71). -/
def Executor.lastRung (e : Executor) (up wrap : Bool) : Prop :=
  e.movesLeft = 0 ∨ (wrap = false ∧ ((up = true ∧ 15 ≤ e.rung) ∨ (up = false ∧ e.rung = 0)))

theorem Part.rungDone_ends {p : Part} {st : Stn} {up wrap : Bool} (h : (p.profile.get st).lastRung up wrap) :
    p.rungDone st up wrap = p.endStepNext st := by
  refine if_pos (h.imp_right ?_)
  rintro ⟨rfl, ⟨rfl, high⟩ | ⟨rfl, low⟩⟩
  · simp [atBoundary, high]
  · simp [atBoundary, low]

section
variable {p : Part} {st : Stn}

theorem Part.runningAt_of (h : (p.station.get st).state = .running) : p.runningAt st = true := decide_eq_true h

theorem Part.rungDwellDone_ends {start : Nat} {up : Bool} {rate limit moves : Nat} {wrap : Bool} {dwell : Nat} {measure : Bool}
    {budget : Nat} (hrun : (p.station.get st).state = .running)
    (hstep : p.currentStep st = some (.ladder start up rate limit moves wrap dwell measure budget))
    (hlast : (p.profile.get st).lastRung up wrap) (hphase : (p.profile.get st).rungPhase = .dwell)
    (hcount : 20 * dwell ≤ (p.profile.get st).dwellCount) : p.rungDwellDone st = p.endStepNext st := by
  simp only [Part.rungDwellDone, hstep]
  exact (if_pos ⟨Part.runningAt_of hrun, hphase, hcount⟩).trans (Part.rungDone_ends hlast)

theorem Part.rungMeasureDone_ends {start : Nat} {up : Bool} {rate limit moves : Nat} {wrap : Bool} {dwell : Nat}
    {measure : Bool} {budget : Nat} (hrun : (p.station.get st).state = .running)
    (hstep : p.currentStep st = some (.ladder start up rate limit moves wrap dwell measure budget))
    (hlast : (p.profile.get st).lastRung up wrap) (hphase : (p.profile.get st).rungPhase = .measure)
    (hreport : (p.collector.get st).report ≠ .none) :
    p.StepEnded (p.rungMeasureDone st (p.collector.get st).report) st ((p.profile.get st).step + 1) := by
  simp only [Part.rungMeasureDone, hstep]
  rw [if_pos ⟨Part.runningAt_of hrun, hphase, hreport, hreport⟩]
  generalize hq : Part.modCollector _ st _ = q
  have station : q.station = p.station := by subst hq; rfl
  have executor : q.profile.get st = { p.profile.get st with
      measureSpent := (p.profile.get st).measureSpent || decide ((p.collector.get st).report = .exhausted) } := by
    subst hq; simp
  have last : (q.profile.get st).lastRung up wrap := by rw [executor]; exact hlast
  rw [Part.rungDone_ends last]
  have ends := Part.endStep_ends (p := q) (st := st) (by rw [station]; exact hrun) ((q.profile.get st).step + 1)
  have step : (q.profile.get st).step = (p.profile.get st).step := by rw [executor]
  rw [← step]
  exact ends.ended.congr (by rw [executor]) (by rw [station])

theorem Part.noiseStepEnd_ends {windows budget : Nat} {quiet : Bool} {limit settle : Nat}
    (hrun : (p.station.get st).state = .running)
    (hstep : p.currentStep st = some (.noise windows budget quiet limit settle))
    (hreport : (p.collector.get st).report ≠ .none) :
    p.StepEnded (p.noiseStepEnd st (p.collector.get st).report) st ((p.profile.get st).step + 1) := by
  simp only [Part.noiseStepEnd, hstep]
  rw [if_pos ⟨Part.runningAt_of hrun, hreport, hreport⟩]
  exact (Part.endStep_ends (p := p.modCollector st (fun c => { c with report := .none })) hrun _).ended

theorem Part.waitLeakEnd_ends (hrun : (p.station.get st).state = .running)
    (hstep : p.currentStep st = some .waitLeak ∨
      ∃ w, p.currentStep st = some (.leak w false) ∧ (p.profile.get st).leakStarted = true)
    (hidle : (p.leak.get st).phase = .idle) : p.waitLeakEnd st (p.leak.get st).phase = p.endStepNext st := by
  rcases hstep with hstep | ⟨w, hstep, started⟩
  · simp only [Part.waitLeakEnd, hstep]
    exact if_pos ⟨Part.runningAt_of hrun, hidle⟩
  · simp only [Part.waitLeakEnd, hstep]
    exact if_pos ⟨Part.runningAt_of hrun, started, rfl, hidle⟩

theorem Part.holdEnd_ends {duration limit : Nat} (hrun : (p.station.get st).state = .running)
    (hstep : p.currentStep st = some (.hold duration limit none))
    (htime : 20 * duration ≤ (p.profile.get st).stepTimer) : p.holdEnd st = p.endStepNext st := by
  simp only [Part.holdEnd, hstep]
  exact if_pos ⟨Part.runningAt_of hrun, htime⟩

end

/-! ## The steps that a close turns (R75 to R79) -/

theorem opensBetween_succ_repeat {table : List Entry} {i j n : Nat} (hi : i < j)
    (h : profileStep table j = some (.repeatLoop n)) : opensBetween table i (j + 1) = opensBetween table i j + 1 := by
  simp [opensBetween, List.range_succ, hi, h]

/-- (`simp` takes the filter's last case by `h`, which it finds in the context.) -/
theorem opensBetween_succ_other {table : List Entry} {i j : Nat}
    (h : ∀ n, profileStep table j = some (.repeatLoop n) → False) :
    opensBetween table i (j + 1) = opensBetween table i j := by
  simp [opensBetween, List.range_succ]

theorem endsBetween_succ_end {table : List Entry} {i j : Nat} (hi : i < j) (h : profileStep table j = some .endRepeat) :
    endsBetween table i (j + 1) = endsBetween table i j + 1 := by
  simp [endsBetween, List.range_succ, hi, h]

/-- (`simp` takes the filter's last case by `h`, which it finds in the context.) -/
theorem endsBetween_succ_other {table : List Entry} {i j : Nat} (h : profileStep table j = some .endRepeat → False) :
    endsBetween table i (j + 1) = endsBetween table i j := by
  simp [endsBetween, List.range_succ]

theorem opensBetween_self (table : List Entry) (i : Nat) : opensBetween table i (i + 1) = 0 := by
  refine List.length_eq_zero_iff.2 (List.filter_eq_nil_iff.2 fun j hj => ?_)
  have before : ¬i < j := by rw [List.mem_range] at hj; omega
  simp [before]

theorem endsBetween_self (table : List Entry) (i : Nat) : endsBetween table i (i + 1) = 0 := by
  refine List.length_eq_zero_iff.2 (List.filter_eq_nil_iff.2 fun j hj => ?_)
  have before : ¬i < j := by rw [List.mem_range] at hj; omega
  simp [before]

/-- The search for the matching END_REPEAT from step `j` of an enclosed body on, at the depth that the steps before `j` left
(spec/04, 4.1). -/
theorem matchingEnd_from {table : List Entry} {i last : Nat} (h : Encloses table i last) : ∀ {fuel j depth : Nat},
    i < j → j ≤ last → last < j + fuel → depth + endsBetween table i j = opensBetween table i j + 1 →
    matchingEnd table fuel j depth = last := by
  obtain ⟨-, -, ends, balanced, inside⟩ := h
  intro fuel
  induction fuel with
  | zero => intros; omega
  | succ fuel ih =>
    intro j depth above upto enough count
    rw [matchingEnd]
    split
    case h_1 n opens =>
      have : j ≠ last := fun e => by rw [e, ends] at opens; cases opens
      refine ih (by omega) (by omega) (by omega) ?_
      rw [opensBetween_succ_repeat above opens, endsBetween_succ_other (by rw [opens]; nofun)]
      omega
    case h_2 closes =>
      by_cases atEnd : j = last
      · subst atEnd
        exact if_pos (by omega)
      · have deep := inside j above (by omega) closes
        rw [if_neg (by omega)]
        refine ih (by omega) (by omega) (by omega) ?_
        rw [opensBetween_succ_other (by rw [closes]; nofun), endsBetween_succ_end above closes]
        omega
    case h_3 opens closes =>
      have : j ≠ last := fun e => closes (by rw [e, ends])
      refine ih (by omega) (by omega) (by omega) ?_
      rw [opensBetween_succ_other opens, endsBetween_succ_other closes]
      exact count

theorem matchingEnd_of_encloses {table : List Entry} {i last : Nat} (h : Encloses table i last) :
    matchingEnd table 64 (i + 1) 1 = last := by
  obtain ⟨after, inTable, -⟩ := id h
  refine matchingEnd_from h (by omega) (by omega) (by omega) ?_
  rw [opensBetween_self, endsBetween_self]

end Sys2Proof.Machine
end

section
/-!
SUPPORT. The close of one cycle at the work of a RUNNING station's executor: the steps that turn there.
-/
namespace Sys2Proof.Machine

open Sys2Proof

/-! ## A CYCLE frame that closes one cycle -/

/-- The frame closes the open cycle; opening the next one and filling the insertion list leave stations and executors. -/
theorem State.Closes.runs {s : State} {f : Frame} {us : Nat} {orders : List (List Work)} {o : BitVec 32}
    (h : s.Closes f us orders o) :
    ∃ t, exec (.cycleFrame .outbound f us orders) s = .next t ∧
      t.part.station = ((s.part.closing f us).closeCycle (orders.headD [])).station ∧
      t.part.profile = ((s.part.closing f us).closeCycle (orders.headD [])).profile := by
  obtain ⟨ticks, number⟩ := h
  have new : cycleNumber f ≠ o := by rw [number]; bv_omega
  have one : (s.part.closing f us).closings o (cycleNumber f) orders = (s.part.closing f us).closeCycle (orders.headD []) := by
    have : (o + 1 - o).toNat = 1 := by bv_omega
    simp only [Part.closings, number, this]
    rfl
  refine ⟨_, ticks.runs new, ?_, ?_⟩
  · show (Part.fill _).station = _
    rw [Part.fill_station, one]
    rfl
  · show (Part.fill _).profile = _
    rw [Part.fill_profile, one]
    rfl

/-! ## The table that the executor reads -/

theorem Slot.table_of_counting {x y : Slot} (h : x.counting 0 = y.counting 0) : x.table = y.table :=
  (congrArg Slot.table h :)

/-- The bound profile table of a station that neither halts nor is bound anew. -/
theorem Rides.profileTable {st : Stn} {written : Prop} {p q : Part} (h : Rides st written p q) (k : Stays st written p q) :
    q.profileTable st = p.profileTable st := by
  unfold Part.profileTable
  rw [k.field Station.binding]
  cases (p.station.get st).binding.profile with
  | none => rfl
  | some ref => exact Slot.table_of_counting (h.tables .profile ref.slot)

/-- The zero run's count leaves the fields that it does not write. -/
theorem Executor.countZero_keeps {α : Type} (e : Executor) (f : Executor → α)
    (hf : ∀ e z s, f { e with zeroRun := z, lastSign := s } = f e := by intros; rfl) : f e.countZero = f e := by
  unfold Executor.countZero
  split
  · exact hf e _ e.lastSign
  · exact hf e _ _

/-! ## The executor's work among the works of a close -/

/-- What the second of two works does not precede stands not before the first. -/
theorem not_mem_left_of_before {l r : List Work} {a b : Work} (h : before (l ++ a :: r) a b = true) (ha : a ∉ l) : b ∉ l := by
  intro hb
  have lt : (l ++ a :: r).idxOf a < (l ++ a :: r).idxOf b := of_decide_eq_true h
  rw [List.idxOf_append, List.idxOf_append, if_neg ha, if_pos hb, List.idxOf_cons_self] at lt
  have := List.idxOf_lt_length_of_mem hb
  omega

/-- The works of a close up to one of them, that one, and the rest. -/
theorem Part.closeCycle_at {p : Part} {order l r : List Work} {w : Work} (h : orderOr order = l ++ w :: r) :
    p.closeCycle order = (r.foldl (Part.doWork p.formClose) (Part.doWork p.formClose
      (l.foldl (Part.doWork p.formClose) p.formClose) w)).modRouter Router.clearSilent := by
  rw [Part.closeCycle, h, List.foldl_append, List.foldl_cons]

/-- The part `u` on which a RUNNING station's executor takes its step's work at a close of `p` that ends in `q`: its record is
that of `p` but for counters and lines, and its check list too where the sequencer's work does not come first. -/
structure Part.Turning (p u q : Part) (st : Stn) (order : List Work) : Prop where
  state : (u.station.get st).state = .running
  executor : u.profile.get st = (p.profile.get st).latch.countZero
  table : u.profileTable st = p.profileTable st
  lines : (p.leak.get st).phase = .idle ∨ before (orderOr order) (.profile st) (.leak st) = true →
    (u.station.get st).lines = (p.station.get st).lines
  after : Stays st True (Part.stepWork p.formClose u st) q

theorem Part.profileWork_running {pre p : Part} {st : Stn} (h : (p.station.get st).state = .running) :
    Part.profileWork pre p st = Part.stepWork pre (p.modProfile st Executor.countZero) st := by
  rw [Part.profileWork]
  simp only [Part.modProfile_station, h]

/-- A RUNNING station that is active when a cycle has closed took its step's work there. -/
theorem Part.closeCycle_turning {p : Part} {st : Stn} {order : List Work} (hrun : (p.station.get st).state = .running)
    (hw : worksFit order = true) (ha : (p.closeCycle order).activeAt st = true) :
    ∃ u, p.Turning u (p.closeCycle order) st order := by
  obtain ⟨l, r, split, notBefore, notAfter⟩ := legalOrder_split (legal_orderOr hw) (.profile st)
  have running : (p.formClose.station.get st).state = .running := hrun
  have closed := Part.closeCycle_at (p := p) split
  have upto : Rides st (.leak st ∈ l ∧ (p.leak.get st).phase ≠ .idle) p.formClose (l.foldl (Part.doWork p.formClose) p.formClose) :=
    works_relate Rides.refl Rides.trans (fun w hw q => Part.doWork_rides (fun e => notBefore (e ▸ hw)) (fun _ => .inl running)
      (fun e => by by_cases idle : (p.leak.get st).phase = .idle
                   · exact .inr idle
                   · exact .inl ⟨e ▸ hw, idle⟩) q) _
  generalize l.foldl (Part.doWork p.formClose) p.formClose = q at closed upto
  have stays : Stays st (.leak st ∈ l ∧ (p.leak.get st).phase ≠ .idle) p.formClose q := by
    refine upto.fate.resolve_right (fun ⟨_, state, _⟩ => ?_)
    have halted := ((Runs.profileWork (st := st) p.formClose q).trans (.works (.inl running) r _)).halted state
    rw [closed] at ha
    exact absurd (ha.symm.trans (congrArg StationState.active halted.1)) (by decide)
  have turns := Part.profileWork_running (pre := p.formClose) ((stays.field Station.state).trans running)
  rw [show Part.doWork p.formClose q (.profile st) = _ from turns] at closed
  have after : Rides st True (Part.stepWork p.formClose (q.modProfile st Executor.countZero) st)
      (r.foldl (Part.doWork p.formClose) (Part.stepWork p.formClose (q.modProfile st Executor.countZero) st)) :=
    works_relate Rides.refl Rides.trans (fun w hw q => Part.doWork_rides (fun e => notAfter (e ▸ hw))
      (fun _ => .inl running) (fun _ => .inl trivial) q) _
  rw [closed] at ha ⊢
  have rests := after.fate.resolve_right (fun ⟨_, halted⟩ => absurd (halted.not_active.symm.trans ha) (by decide))
  refine ⟨q.modProfile st Executor.countZero, (stays.field Station.state).trans running, ?_, upto.profileTable stays,
    fun first => ?_, rests.profile, rests.station, rests.lines⟩
  · rw [Part.modProfile_profile, Four.get_set_same, stays.profile, Part.formClose_profile]
  · refine stays.lines (fun ⟨earlier, busy⟩ => first.elim busy (fun reads => ?_))
    rw [split] at reads
    exact not_mem_left_of_before reads notBefore earlier

/-! ## What a turned step leaves -/

/-- The step turned into step `next` with this loop stack; the setpoint stays (R59, R60, R75). -/
def Part.Turns (p q : Part) (st : Stn) (next : Nat) (loops : List LoopFrame) : Prop :=
  p.StepTurned q st next ∧ (q.profile.get st).setpoint = (p.profile.get st).setpoint ∧
    ((p.profile.get st).pendingAbort = false → (q.profile.get st).loops = loops)

theorem Part.StepTurned.congr {p p' q q' : Part} {st : Stn} {next : Nat} (h : p'.StepTurned q' st next)
    (hp : (p'.profile.get st).pendingAbort = (p.profile.get st).pendingAbort)
    (hq : q.profile.get st = q'.profile.get st) (hs : (q.station.get st).state = (q'.station.get st).state) :
    p.StepTurned q st next := by
  unfold Part.StepTurned at h ⊢
  rw [← hp, hq, hs]
  exact h

theorem Part.ProfileEnded.congr {p p' q q' : Part} {st : Stn} {early : Bool} (h : p'.ProfileEnded q' st early)
    (hp : (p'.profile.get st).pendingAbort = (p.profile.get st).pendingAbort ∧
      (p'.profile.get st).step = (p.profile.get st).step ∧ (p'.profile.get st).setpoint = (p.profile.get st).setpoint)
    (hq : q.profile.get st = q'.profile.get st) (hs : (q.station.get st).state = (q'.station.get st).state)
    (he : (q.station.get st).earlyStop = (q'.station.get st).earlyStop) : p.ProfileEnded q st early := by
  obtain ⟨pending, step, setpoint⟩ := hp
  unfold Part.ProfileEnded at h ⊢
  rw [← pending, ← step, ← setpoint, hq, hs, he]
  exact h

/-- The end of a step whose loop stack the work itself set. -/
theorem EndsStep.turns {p u q r : Part} {st : Stn} {next : Nat} {written : Prop} (h : EndsStep st u r next)
    (hp : (u.profile.get st).pendingAbort = (p.profile.get st).pendingAbort ∧
      (u.profile.get st).setpoint = (p.profile.get st).setpoint) (k : Stays st written r q) :
    p.Turns q st next (u.profile.get st).loops := by
  obtain ⟨pending, setpoint⟩ := hp
  refine ⟨h.ended.turned.congr pending k.profile (k.field Station.state), ?_, fun none => ?_⟩
  · rw [k.profile, h.setpoint, setpoint]
  · rw [k.profile, h.loops (pending.trans none)]

namespace Part.Turning

variable {p u q : Part} {st : Stn} {order : List Work}

/-- The zero run's count and the setpoint in force are all that the executor has over that of `p`. -/
theorem field (h : p.Turning u q st order) {α : Type} (f : Executor → α)
    (hf : ∀ e z s, f { e with zeroRun := z, lastSign := s } = f e := by intros; rfl)
    (hl : ∀ e, f e.latch = f e := by intros; rfl) : f (u.profile.get st) = f (p.profile.get st) := by
  rw [h.executor, Executor.countZero_keeps _ f hf, hl]

theorem currentStep (h : p.Turning u q st order) : u.currentStep st = p.currentStep st := by
  rw [Part.currentStep, Part.currentStep, h.table, h.field Executor.step]

/-- A step's work that ends the step. -/
theorem endStep (h : p.Turning u q st order) {next : Nat} (hw : Part.stepWork p.formClose u st = u.endStep st next) :
    p.Turns q st next (p.profile.get st).loops := by
  rw [← h.field Executor.loops]
  refine (Part.endStep_ends h.state next).turns ⟨h.field Executor.pendingAbort, h.field Executor.setpoint⟩
    (written := True) ?_
  rw [← hw]
  exact h.after

/-- A step's work that changes the loop stack and ends the step. -/
theorem endStep_loops (h : p.Turning u q st order) {next : Nat} {loops : List LoopFrame}
    (hw : Part.stepWork p.formClose u st = (u.modProfile st (fun e => { e with loops := loops })).endStep st next) :
    p.Turns q st next loops := by
  have executor : (u.modProfile st (fun e => { e with loops := loops })).profile.get st =
      { u.profile.get st with loops := loops } := by simp
  have ends := (Part.endStep_ends (p := u.modProfile st (fun e => { e with loops := loops })) h.state next).turns (p := p) (q := q)
    (written := True) (by rw [executor]; exact ⟨h.field Executor.pendingAbort, h.field Executor.setpoint⟩)
    (by rw [← hw]; exact h.after)
  rwa [executor] at ends

/-- A step's work that ends the profile. -/
theorem endProfile (h : p.Turning u q st order) {early : Bool} (hw : Part.stepWork p.formClose u st = u.endProfile st early) :
    p.ProfileEnded q st early := by
  have after := h.after
  rw [hw] at after
  exact (u.endProfile_ends st early).congr
    ⟨h.field Executor.pendingAbort, h.field Executor.step, h.field Executor.setpoint⟩
    after.profile (after.field Station.state) (after.field Station.earlyStop)

/-! ### The control steps (R75 to R79) -/

theorem repeatZero (h : p.Turning u q st order) {last : Nat} (hs : p.currentStep st = some (.repeatLoop 0))
    (he : Encloses (p.profileTable st) (p.profile.get st).step last) : p.Turns q st (last + 1) (p.profile.get st).loops := by
  refine h.endStep ?_
  rw [← h.currentStep] at hs
  simp only [Part.stepWork, hs, Part.repeatWork, if_true, h.table, h.field Executor.step, matchingEnd_of_encloses he]

theorem repeatLoop (h : p.Turning u q st order) {n last : Nat} (hs : p.currentStep st = some (.repeatLoop n)) (hn : n ≠ 0)
    (he : Encloses (p.profileTable st) (p.profile.get st).step last) :
    p.Turns q st ((p.profile.get st).step + 1) ({ firstBody := (p.profile.get st).step + 1, endIndex := last, remaining := n } ::
      (p.profile.get st).loops) := by
  rw [← h.currentStep] at hs
  refine h.endStep_loops ?_
  rw [← h.field Executor.loops]
  simp only [Part.stepWork, hs, Part.repeatWork, if_neg hn, h.table, h.field Executor.step, matchingEnd_of_encloses he]
  rfl

theorem endRepeat (h : p.Turning u q st order) {k : LoopFrame} {rest : List LoopFrame}
    (hs : p.currentStep st = some .endRepeat) (hl : (p.profile.get st).loops = k :: rest) :
    (1 < k.remaining → p.Turns q st k.firstBody ({ k with remaining := k.remaining - 1 } :: rest)) ∧
    (k.remaining ≤ 1 → p.Turns q st ((p.profile.get st).step + 1) rest) := by
  rw [← h.currentStep] at hs
  rw [← h.field Executor.loops] at hl
  refine ⟨fun more => h.endStep_loops ?_, fun last => h.endStep_loops ?_⟩
  · simp only [Part.stepWork, hs, Part.endRepeatWork, hl, if_pos more]
  · simp only [Part.stepWork, hs, Part.endRepeatWork, hl, if_neg (Nat.not_lt.2 last), Part.endStepNext,
      Part.modProfile_profile, Four.get_set_same, h.field Executor.step]

/-- A step whose work is only to end (R60). -/
theorem endStepNext (h : p.Turning u q st order) (hw : Part.stepWork p.formClose u st = u.endStepNext st) :
    p.Turns q st ((p.profile.get st).step + 1) (p.profile.get st).loops :=
  h.endStep (by rw [hw, Part.endStepNext, h.field Executor.step])

theorem exitIfFailed (h : p.Turning u q st order) {k : LoopFrame} {rest : List LoopFrame}
    (hr : rejected (u.station.get st).lines = rejected (p.station.get st).lines)
    (hs : p.currentStep st = some .exitIfFailed) (hl : (p.profile.get st).loops = k :: rest) :
    (rejected (p.station.get st).lines = true → p.Turns q st (k.endIndex + 1) rest) ∧
    (¬rejected (p.station.get st).lines = true → p.Turns q st ((p.profile.get st).step + 1) (p.profile.get st).loops) := by
  rw [← h.currentStep] at hs
  have loops := (h.field Executor.loops).trans hl
  rw [← hr]
  refine ⟨fun failed => h.endStep_loops ?_, fun none => h.endStepNext ?_⟩
  · simp only [Part.stepWork, hs, Part.exitIfFailedWork, loops, if_pos failed]
  · simp only [Part.stepWork, hs, Part.exitIfFailedWork, loops, if_neg none]

theorem stopIfRejected (h : p.Turning u q st order)
    (hr : rejected (u.station.get st).lines = rejected (p.station.get st).lines)
    (hs : p.currentStep st = some .stopIfRejected) :
    (rejected (p.station.get st).lines = true → p.ProfileEnded q st true) ∧
    (¬rejected (p.station.get st).lines = true → p.Turns q st ((p.profile.get st).step + 1) (p.profile.get st).loops) := by
  rw [← h.currentStep] at hs
  rw [← hr]
  refine ⟨fun failed => h.endProfile ?_, fun none => h.endStepNext ?_⟩
  · simp only [Part.stepWork, hs, Part.stopIfRejectedWork, if_pos failed]
  · simp only [Part.stepWork, hs, Part.stopIfRejectedWork, if_neg none]

theorem finish (h : p.Turning u q st order) (hs : p.currentStep st = some .finish) : p.ProfileEnded q st false := by
  rw [← h.currentStep] at hs
  exact h.endProfile (by simp only [Part.stepWork, hs])

end Part.Turning

/-- A RUNNING station that the close of a cycle leaves active took its step's work there. -/
theorem State.Closes.turning {s : State} {f : Frame} {us : Nat} {orders : List (List Work)} {o : BitVec 32} {st : Stn}
    (h : s.Closes f us orders o) (hrun : (s.part.station.get st).state = .running) :
    ∃ t, exec (.cycleFrame .outbound f us orders) s = .next t ∧
      (t.part.activeAt st = true → ∃ u, (s.part.closing f us).Turning u t.part st (orders.headD [])) := by
  obtain ⟨t, runs, station, profile⟩ := h.runs
  refine ⟨t, runs, fun active => ?_⟩
  rw [Part.activeAt, station] at active
  obtain ⟨u, turning⟩ := Part.closeCycle_turning (p := s.part.closing f us) hrun (worksFit_headD h.1.orders_fit) active
  refine ⟨u, turning.state, turning.executor, turning.table, turning.lines, ?_, ?_, ?_⟩
  · rw [profile]; exact turning.after.profile
  · rw [station]; exact turning.after.station
  · rw [station]; exact turning.after.lines

/-! ## StepsEnd -/

/-- Settles O23: the rows by their end tests, the close by the turned step of each kind. -/
theorem stepsEnd : Obligations.StepsEnd := by
  unfold Obligations.StepsEnd
  refine ⟨fun st s online hrun => ?rows, fun f us orders o st s closes hrun => ?close⟩
  case rows =>
    have next := Part.endStep_ends hrun ((s.part.profile.get st).step + 1)
    refine ⟨fun start up rate limit moves wrap dwell measure budget hstep hlast => ⟨fun hphase hcount => ?_, fun hphase hreport => ?_⟩,
      fun windows budget quiet limit settle hstep hreport => ?_, fun hstep hidle => ?_, fun duration limit hstep htime => ?_⟩
    · exact ⟨{ s with part := _ }, State.become_atClose online (Part.rungDwellDone_ends hrun hstep hlast hphase hcount), next.ended⟩
    · exact ⟨{ s with part := _ }, State.become_atClose online rfl, Part.rungMeasureDone_ends hrun hstep hlast hphase hreport⟩
    · exact ⟨{ s with part := _ }, State.become_atClose online rfl, Part.noiseStepEnd_ends hrun hstep hreport⟩
    · exact ⟨{ s with part := _ }, State.become_atClose online (Part.waitLeakEnd_ends hrun hstep hidle), next.ended⟩
    · exact ⟨{ s with part := _ }, State.become_atClose online (Part.holdEnd_ends hrun hstep htime), next.ended, next.lines⟩
  case close =>
    obtain ⟨t, runs, active⟩ := closes.turning hrun
    refine ⟨t, runs, fun ha => ?_⟩
    obtain ⟨u, turning⟩ := active ha
    refine ⟨fun last hs he => turning.repeatZero hs he, fun n last hs hn he => turning.repeatLoop hs hn he,
      fun k rest hs hl => turning.endRepeat hs hl, fun reads => ?_, fun hs => turning.finish hs⟩
    have lines : rejected (u.station.get st).lines = rejected (s.part.station.get st).lines :=
      congrArg rejected (turning.lines reads)
    rw [← rejected_iff]
    exact ⟨fun k rest hs hl => turning.exitIfFailed lines hs hl, fun hs => turning.stopIfRejected lines hs⟩

end Sys2Proof.Machine
end

section
/-!
SUPPORT. A station in PREP at the close of a cycle: the live runs, the change to RUNNING, and the timer.
-/
namespace Sys2Proof.Machine

open Sys2Proof

/-! ## What a close delivered (R7, R38) -/

/-- A mapped role delivered at a close exactly when an entry served it, and then holds that entry's frame. -/
theorem Part.formClose_delivery {p : Part} {st : Stn} {role : Role} (h : p.roleAt st role ≠ none) :
    p.formClose.deliveredAt st role = (serving (roleOwner st role) role p.router.entries).isSome ∧
    ∀ v, serving (roleOwner st role) role p.router.entries = some v →
      (p.formClose.roleAt st role).map RoleRecord.value = some v := by
  obtain ⟨r, hr⟩ := Option.ne_none_iff_exists'.1 h
  have formed : p.formClose.roleAt st role = some (r.form p.router.entries) := by
    rw [Part.roleAt, Part.formClose_roleRecord]
    exact congrArg (Option.map _) hr
  obtain ⟨owner, is⟩ := Part.roleRecord_names hr
  rw [← owner, ← is]
  rw [← is] at formed
  unfold Part.deliveredAt
  rw [formed]
  cases served : serving r.owner r.role p.router.entries with
  | none => exact ⟨by rw [RoleRecord.form_none served]; rfl, nofun⟩
  | some v =>
    rw [RoleRecord.form_some served]
    refine ⟨?_, fun w hw => by rw [← hw]; rfl⟩
    cases hv : v.overloaded <;> simp

theorem zipWith_congr_left {α β γ : Type} {f g : α → β → γ} {l : List α} (h : ∀ a ∈ l, f a = g a) (m : List β) :
    List.zipWith f l m = List.zipWith g l m := by
  have applied (k : α → β → γ) : List.zipWith k l m = List.zipWith (fun k b => k b) (l.map k) m := by
    rw [List.zipWith_map_left]
  rw [applied f, applied g, List.map_congr_left h]

/-- The live runs after a close, by the entries that served the required roles (R7). -/
def Part.liveTo (p : Part) (st : Stn) : List Nat :=
  List.zipWith (fun role n =>
    if (serving (roleOwner st role) role p.router.entries).isSome then satSucc 20 n else 0)
    (p.station.get st).required (p.station.get st).live

/-- What R7 asks of a close: every live run is 20, and the frame that served DRIVE shows ready. -/
def Part.readyTo (p : Part) (st : Stn) : Prop :=
  (∀ n ∈ p.liveTo st, n = 20) ∧ ∃ v, serving (roleOwner st .drive) .drive p.router.entries = some v ∧ v.driveReady = true

section
variable {p q : Part} {st : Stn}

theorem Part.liveAfter_eq (hr : q.router = p.formClose.router) (hs : (q.station.get st).required = (p.station.get st).required)
    (hl : (q.station.get st).live = (p.station.get st).live)
    (hm : ∀ role ∈ (p.station.get st).required, p.roleAt st role ≠ none) : q.liveAfter st = p.liveTo st := by
  unfold Part.liveAfter Part.liveTo
  dsimp only
  rw [hs, hl]
  refine zipWith_congr_left (fun role hrole => ?_) _
  have delivered : q.deliveredAt st role = p.formClose.deliveredAt st role := by
    simp only [Part.deliveredAt, Part.roleAt, Part.roleRecord, hr]
  rw [delivered, (Part.formClose_delivery (hm role hrole)).1]

theorem Part.prepReady_iff (hr : q.router = p.formClose.router) (hs : (q.station.get st).state = .prep)
    (hl : (q.station.get st).live = p.liveTo st) (hm : p.roleAt st .drive ≠ none) :
    q.prepReady st = true ↔ p.readyTo st := by
  have record : q.roleAt st .drive = p.formClose.roleAt st .drive := by simp only [Part.roleAt, Part.roleRecord, hr]
  have delivered : q.deliveredAt st .drive = p.formClose.deliveredAt st .drive := by simp only [Part.deliveredAt, record]
  obtain ⟨delivers, value⟩ := Part.formClose_delivery hm
  unfold Part.prepReady Part.readyTo
  dsimp only
  rw [hs, hl, delivered, delivers, record]
  cases served : serving (roleOwner st .drive) .drive p.router.entries with
  | none => simp
  | some v =>
    have shows : (p.formClose.roleAt st .drive).map (fun r => r.value.driveReady) = some v.driveReady := by
      rw [show (fun r : RoleRecord => r.value.driveReady) = Sample.driveReady ∘ RoleRecord.value from rfl, ← Option.map_map,
        value v served]
      rfl
    simp [shows]

end

/-! ## The controller's work in PREP (R7, R8) -/

/-- PREP_TO_RUNNING: the station is RUNNING and step 0 begun. -/
theorem Part.prepToRunning_begins {p : Part} {st : Stn} (h : p.prepReady st = true) :
    BeginsStep st (p.modStation st (fun x => { x with state := .running })) (p.prepToRunning st) 0 := by
  rw [Part.prepToRunning, if_pos h]
  exact Part.beginStep_begins _ st 0

theorem Part.prepTimeout_early {p : Part} {st : Stn} (h : (p.station.get st).prepTimer < 2000) : p.prepTimeout st = p := by
  rw [Part.prepTimeout, Part.prepOverdue, decide_eq_false (Nat.not_le.2 h)]
  simp

/-- From `p` to `q` a close took the station out of PREP or kept it there (R7, R8). -/
structure Part.Prepared (p q : Part) (st : Stn) : Prop where
  ready : p.readyTo st → (q.station.get st).state = .running ∧ (q.profile.get st).step = 0 ∧
    (q.profile.get st).stepTimer = 0 ∧ (q.profile.get st).remainder = 0
  waits : ¬p.readyTo st → (p.station.get st).prepTimer < 1999 → (q.station.get st).state = .prep ∧
    (q.station.get st).live = p.liveTo st ∧ (q.station.get st).prepTimer = (p.station.get st).prepTimer + 1
  overdue : ¬p.readyTo st → 1999 ≤ (p.station.get st).prepTimer → (q.station.get st).state = .halted

/-- The station's record but for counters and check list. -/
def SameRecord (x y : Station) : Prop := { y with counters := x.counters, lines := x.lines } = x

theorem SameRecord.field {α : Type} {x y : Station} (h : SameRecord x y) (f : Station → α)
    (hf : ∀ x k ls, f { x with counters := k, lines := ls } = f x := by intros; rfl) : f y = f x :=
  (hf _ _ _).symm.trans (congrArg f h)

theorem SameRecord.trans {x y z : Station} (h : SameRecord x y) (k : SameRecord y z) : SameRecord x z := by
  have := congrArg (fun y : Station => { y with counters := x.counters, lines := x.lines }) k
  exact this.trans h

/-- The timer's part of a close in PREP (R8): one higher, and the halt at 2,000. -/
theorem Part.prepTimer_counts {x : Part} {st : Stn} (hs : (x.station.get st).state = .prep) (hr : ¬x.prepReady st = true) :
    let y := (x.modStation st (fun k => { k with prepTimer := satSucc 2000 k.prepTimer })).prepTimeout st
    ((x.station.get st).prepTimer < 1999 → y.station.get st = { x.station.get st with
      prepTimer := (x.station.get st).prepTimer + 1 }) ∧
    (1999 ≤ (x.station.get st).prepTimer → (y.station.get st).state = .halted) := by
  dsimp only
  generalize hy : x.modStation st (fun k => { k with prepTimer := satSucc 2000 k.prepTimer }) = y
  have station : y.station.get st = { x.station.get st with prepTimer := satSucc 2000 (x.station.get st).prepTimer } := by
    subst hy; simp
  have timer : (y.station.get st).prepTimer = satSucc 2000 (x.station.get st).prepTimer := by rw [station]
  have state : (y.station.get st).state = .prep := by rw [station]; exact hs
  refine ⟨fun early => ?_, fun late => ?_⟩
  · have counts : satSucc 2000 (x.station.get st).prepTimer = (x.station.get st).prepTimer + 1 := if_pos (by omega)
    rw [Part.prepTimeout_early (by omega), station, counts]
  · have full : 2000 ≤ satSucc 2000 (x.station.get st).prepTimer := by unfold satSucc; split <;> omega
    have unready : y.prepReady st = false := by
      rw [← Bool.not_eq_true, ← hy]
      simpa [Part.prepReady, Part.deliveredAt, Part.roleAt, Part.roleRecord] using hr
    rw [Part.prepTimeout_halts state (timer ▸ full) unready]
    exact ((y.halt_frame st .noSignal).halted (by rw [Part.activeAt, state]; rfl)).1

/-- The controller's work on a station that the close found in PREP. -/
theorem Part.prepWork_prepared {p q : Part} {st : Stn} (hr : q.router = p.formClose.router)
    (hp : (p.station.get st).state = .prep) (hs : SameRecord (p.station.get st) (q.station.get st))
    (hm : ∀ role ∈ .drive :: (p.station.get st).required, p.roleAt st role ≠ none) :
    p.Prepared (q.prepWork st) st := by
  have lives := Part.liveAfter_eq hr (hs.field Station.required) (hs.field Station.live)
    (fun role h => hm role (List.mem_cons_of_mem _ h))
  unfold Part.prepWork
  dsimp only
  rw [lives]
  generalize hx : q.modStation st (fun x => { x with live := p.liveTo st }) = x
  have station : x.station.get st = { q.station.get st with live := p.liveTo st } := by subst hx; simp
  have state : (x.station.get st).state = .prep := by rw [station]; exact (hs.field Station.state).trans hp
  have timer : (x.station.get st).prepTimer = (p.station.get st).prepTimer := by rw [station]; exact hs.field Station.prepTimer
  have live : (x.station.get st).live = p.liveTo st := by rw [station]
  have readies := Part.prepReady_iff (by subst hx; exact hr) state live (hm .drive List.mem_cons_self)
  split
  · next ready =>
    have begun := Part.prepToRunning_begins ready
    have holds := readies.1 ready
    exact ⟨fun _ => ⟨begun.state.trans (by simp), begun.step, begun.stepTimer, begun.remainder⟩, fun n => absurd holds n,
      fun n => absurd holds n⟩
  · next unready =>
    have fails := mt readies.2 unready
    obtain ⟨counts, halts⟩ := Part.prepTimer_counts state unready
    rw [timer] at counts halts
    refine ⟨fun h => absurd h fails, fun _ early => ?_, fun _ => halts⟩
    rw [counts early]
    exact ⟨state, live, rfl⟩

/-! ## The works before and after the controller's -/

/-- A work that runs with the station (see `Runs`) and keeps the record of one in PREP, or halts it. -/
structure Awaits (st : Stn) (p q : Part) : Prop where
  runs : Runs st p q
  prep : (p.station.get st).state = .prep → SameRecord (p.station.get st) (q.station.get st) ∨ q.HaltedBy st

namespace Awaits

variable {st : Stn}

theorem refl (p : Part) : Awaits st p p := ⟨.refl p, fun _ => .inl rfl⟩

theorem trans {p q r : Part} (h : Awaits st p q) (k : Awaits st q r) : Awaits st p r where
  runs := h.runs.trans k.runs
  prep := fun s => by
    rcases h.prep s with same | ⟨state, cause⟩
    · exact (k.prep ((same.field Station.state).trans s)).imp_left same.trans
    · obtain ⟨state', cause'⟩ := k.runs.halted state
      exact .inr ⟨state', by rw [cause']; exact cause⟩

theorem of_rides {written : Prop} {p q : Part} (h : Rides st written p q) : Awaits st p q :=
  ⟨.of_rides h, fun _ => h.fate.imp Stays.station And.right⟩

theorem profileWork (pre p : Part) : Awaits st p (Part.profileWork pre p st) := by
  refine ⟨.profileWork pre p, fun s => .inl ?_⟩
  rw [Part.profileWork_resting (.inl s)]
  rfl

/-- Every work of a close but that of the station's controller. -/
theorem doWork {pre : Part} {w : Work} (h : w ≠ .control st) (p : Part) : Awaits st p (Part.doWork pre p w) := by
  by_cases hw : w = .profile st
  · subst hw; exact profileWork pre p
  · exact of_rides (written := True) (Part.doWork_rides hw (fun e => absurd e h) (fun _ => .inl trivial) p)

end Awaits

/-- What became of a station in PREP stays through works that leave its record and its executor. -/
theorem Part.Prepared.stays {p q r : Part} {st : Stn} {written : Prop} (h : p.Prepared q st) (k : Stays st written q r) :
    p.Prepared r st := by
  obtain ⟨ready, waits, overdue⟩ := h
  have state := k.field Station.state
  refine ⟨?_, ?_, ?_⟩
  · rw [state, k.profile]; exact ready
  · rw [state, k.field Station.live, k.field Station.prepTimer]; exact waits
  · rw [state]; exact overdue

/-- The close of a cycle at which a station stands in PREP: halted for a cause of its roles, or as R7 and R8 say. -/
theorem Part.closeCycle_prepared {p : Part} {st : Stn} {order : List Work} (hp : (p.station.get st).state = .prep)
    (hm : ∀ role ∈ .drive :: (p.station.get st).required, p.roleAt st role ≠ none) (hw : worksFit order = true) :
    ((p.closeCycle order).station.get st).state = .halted ∨ p.Prepared (p.closeCycle order) st := by
  have legal := legal_orderOr hw
  obtain ⟨l, r, split, notBefore, notAfter⟩ := legalOrder_split legal (.control st)
  have profile : Work.profile st ∉ r := by
    intro hr
    have once := legalOrder_count legal (.profile st)
    have hl := mem_left_of_before (split ▸ legalOrder_before legal st) notBefore
    rw [split, List.count_append, List.count_cons_of_ne (by simp)] at once
    have := List.count_pos_iff.2 hl
    have := List.count_pos_iff.2 hr
    omega
  have upto : Awaits st p.formClose (l.foldl (Part.doWork p.formClose) p.formClose) :=
    works_relate Awaits.refl Awaits.trans (fun w hw q => .doWork (fun e => notBefore (e ▸ hw)) q) _
  rw [Part.closeCycle_at split]
  generalize l.foldl (Part.doWork p.formClose) p.formClose = q at upto ⊢
  have after (x : Part) : Rides st True x (r.foldl (Part.doWork p.formClose) x) :=
    works_relate Rides.refl Rides.trans (fun w hw y => Part.doWork_rides (fun e => profile (e ▸ hw))
      (fun e => absurd hw (e ▸ notAfter)) (fun _ => .inl trivial) y) x
  rcases upto.prep hp with same | ⟨state, -⟩
  · have works : Part.controlWork p.formClose q st = q.prepWork st := by
      have state := (same.field Station.state).trans hp
      have found : ¬(p.formClose.station.get st).state ≠ (q.station.get st).state := by rw [state]; exact fun moved => moved hp
      unfold Part.controlWork
      dsimp only
      rw [if_neg found, state]
    rw [show Part.doWork p.formClose q (.control st) = q.prepWork st from works]
    have prepared := Part.prepWork_prepared (Part.outer_router upto.runs.outer) hp same hm
    rcases (after (q.prepWork st)).fate with stays | ⟨-, halted⟩
    · exact .inr (prepared.stays (written := True) ⟨stays.profile, stays.station, stays.lines⟩)
    · exact .inl halted.1
  · have works : Part.controlWork p.formClose q st = q := by
      have moved : (p.formClose.station.get st).state ≠ (q.station.get st).state := by
        rw [state]; exact fun e => by cases hp.symm.trans e
      unfold Part.controlWork
      exact if_pos moved
    rw [show Part.doWork p.formClose q (.control st) = q from works]
    exact .inl (((Runs.of_rides (after q)).halted state).1)

/-! ## PrepToRunning -/

/-- Settles O20: the row by the step that it begins, the close by the controller's work in PREP. -/
theorem prepToRunning : Obligations.PrepToRunning := by
  unfold Obligations.PrepToRunning
  refine ⟨fun st r s online hp live hr mark shows => ?_, fun f us orders o st s closes hp mapped => ?_⟩
  · have record : s.part.roleAt st .drive = some r := hr
    have ready : s.part.prepReady st = true := by
      have runs : ((s.part.station.get st).live.all (fun n => n == 20)) = true :=
        List.all_eq_true.2 (fun n hn => by simp [live n hn])
      simp [Part.prepReady, Part.deliveredAt, record, hp, mark, shows, runs]
    have begun := Part.prepToRunning_begins ready
    refine ⟨{ s with part := _ }, State.become_atClose online rfl, begun.state.trans (by simp), begun.step, begun.stepTimer,
      begun.remainder, begun.steps.trans (by simp), fun i hi => ?_⟩
    obtain ⟨station, executor⟩ := begun.others i hi
    exact ⟨station.trans (by simp [Four.get_set_other _ _ hi]), executor⟩
  · obtain ⟨t, runs, station, profile⟩ := closes.runs
    have prepared := Part.closeCycle_prepared (p := s.part.closing f us) hp mapped (worksFit_headD closes.1.orders_fit)
    refine ⟨t, runs, fun unready late => ?_, fun active => ?_⟩
    · rw [station]
      exact prepared.elim id (fun h => h.overdue unready late)
    · rw [Part.activeAt, station] at active
      obtain ⟨ready, waits, overdue⟩ := prepared.resolve_left (fun halted => by rw [halted] at active; cases active)
      rw [station, profile]
      refine ⟨ready, fun unready => waits unready (Nat.lt_of_not_le fun late => ?_)⟩
      rw [overdue unready late] at active
      cases active

end Sys2Proof.Machine
end

section
/-!
SUPPORT. The metrics of an evaluation against their definitions: the integer square root, the sums over a waveform's bins
and the sine table; and what an evaluation does to one check line.
-/
namespace Sys2Proof.Machine

open Sys2Proof

/-! ## The integer square root -/

/-- With `k` digits to come the root lies in the `2 ^ k` values from `r` on; each digit halves them. -/
theorem isqrtDigits_isRoot (n k r : Nat) (low : r * r ≤ n) (high : n < (r + 2 ^ k) * (r + 2 ^ k)) :
    IsRoot n (isqrtDigits n k r) := by
  induction k generalizing r with
  | zero => exact ⟨low, high⟩
  | succ k ih =>
    unfold isqrtDigits
    split
    · next fits => exact ih _ fits (by rwa [Nat.add_assoc, ← Nat.two_mul, ← Nat.pow_succ'])
    · next tooLarge => exact ih r low (Nat.lt_of_not_le tooLarge)

theorem isqrt_isRoot (n : Nat) : IsRoot n (isqrt n) := by
  refine isqrtDigits_isRoot n _ 0 (Nat.zero_le n) ?_
  calc n < 2 ^ (n.log2 + 1) := Nat.lt_log2_self
    _ ≤ 2 ^ ((n.log2 / 2 + 1) + (n.log2 / 2 + 1)) := Nat.pow_le_pow_right (by decide) (by omega)
    _ = (0 + 2 ^ (n.log2 / 2 + 1)) * (0 + 2 ^ (n.log2 / 2 + 1)) := by rw [Nat.pow_add, Nat.zero_add]

/-! ## The sine table (R113) -/

theorem sine_mod (i : Nat) : sine (i % 256) = sine i := by simp only [sine, Nat.mod_mod]

theorem cosine_eq (i : Nat) : cosine i = sine ((i + 64) % 256) := (sine_mod (i + 64)).symm

theorem cosine_mod (i : Nat) : cosine (i % 256) = cosine i := by rw [cosine_eq, cosine_eq, Nat.mod_add_mod]

theorem sineQuarter_bounds (j : Nat) : 0 ≤ sineQuarter.getD j 0 ∧ sineQuarter.getD j 0 ≤ 32767 := by
  have entries : ∀ x ∈ sineQuarter, 0 ≤ x ∧ x ≤ 32767 := by decide
  rw [List.getD_eq_getElem?_getD]
  cases found : sineQuarter[j]? with
  | none => exact ⟨Int.le_refl 0, by decide⟩
  | some x => exact entries x (List.mem_of_getElem? found)

theorem sine_bounds (i : Nat) : -32767 ≤ sine i ∧ sine i ≤ 32767 := by
  have plain (j : Nat) : -32767 ≤ sineQuarter.getD j 0 ∧ sineQuarter.getD j 0 ≤ 32767 := by
    have := sineQuarter_bounds j; omega
  have negated (j : Nat) : -32767 ≤ -sineQuarter.getD j 0 ∧ -sineQuarter.getD j 0 ≤ 32767 := by
    have := sineQuarter_bounds j; omega
  unfold sine
  dsimp only
  split
  · exact plain _
  · split
    · exact plain _
    · split
      · exact negated _
      · exact negated _

/-! The four quarters of the table, each from the first. -/

theorem sine_first {i : Nat} (h : i ≤ 64) : sine i = sineQuarter.getD i 0 := by
  unfold sine
  rw [Nat.mod_eq_of_lt (by omega)]
  exact if_pos h

theorem sine_second {i : Nat} (h : i ≤ 64) : sine (128 - i) = sineQuarter.getD i 0 := by
  rcases Nat.lt_or_eq_of_le h with below | rfl
  · unfold sine
    rw [Nat.mod_eq_of_lt (by omega)]
    dsimp only
    rw [if_neg (by omega), if_pos (by omega), show 128 - (128 - i) = i by omega]
  · rfl

theorem sine_third {i : Nat} (pos : 1 ≤ i) (h : i ≤ 64) : sine (128 + i) = -sineQuarter.getD i 0 := by
  unfold sine
  rw [Nat.mod_eq_of_lt (by omega)]
  dsimp only
  rw [if_neg (by omega), if_neg (by omega), if_pos (by omega), Nat.add_sub_cancel_left]

theorem sine_fourth {i : Nat} (pos : 1 ≤ i) (h : i ≤ 64) : sine (256 - i) = -sineQuarter.getD i 0 := by
  rcases Nat.lt_or_eq_of_le h with below | rfl
  · unfold sine
    rw [Nat.mod_eq_of_lt (by omega)]
    dsimp only
    rw [if_neg (by omega), if_neg (by omega), if_neg (by omega), show 256 - (256 - i) = i by omega]
  · rfl

theorem sine_half_sub {i : Nat} (h : i ≤ 128) : sine (128 - i) = sine i := by
  rcases Nat.le_total i 64 with early | late
  · rw [sine_second early, sine_first early]
  · rw [sine_first (by omega), ← sine_second (i := 128 - i) (by omega), show 128 - (128 - i) = i by omega]

theorem sine_full_sub {i : Nat} (pos : 1 ≤ i) (h : i ≤ 127) : sine (256 - i) = -sine i := by
  rcases Nat.le_total i 64 with early | late
  · rw [sine_fourth pos early, sine_first early]
  · rw [show 256 - i = 128 + (128 - i) by omega, sine_third (by omega) (by omega), ← sine_first (by omega),
      sine_half_sub (by omega)]

/-! ## The sums over the bins -/

/-- The first bin apart, as the sums over a waveform recur. -/
theorem sum_range_first (f : Nat → Int) (n : Nat) :
    ((List.range (n + 1)).map f).sum = f 0 + ((List.range n).map (fun i => f (i + 1))).sum := by
  rw [List.range_succ_eq_map, List.map_cons, List.sum_cons, List.map_map]
  rfl

theorem waveSum_eq_sum (table : Nat → Int) (k : Nat) (wave : List Int) (b : Nat) :
    waveSum table k wave b = ((List.range wave.length).map (fun i => wave.getD i 0 * table (k * (b + i)))).sum := by
  induction wave generalizing b with
  | nil => rfl
  | cons x xs ih =>
    rw [List.length_cons, sum_range_first, waveSum, ih]
    simp only [List.getD_cons_zero, List.getD_cons_succ, Nat.add_zero, Nat.add_assoc, Nat.add_comm 1]

theorem squareSum_eq_sum (wave : List Int) :
    (squareSum wave : Int) = ((List.range wave.length).map (fun i => wave.getD i 0 * wave.getD i 0)).sum := by
  induction wave with
  | nil => rfl
  | cons x xs ih =>
    rw [List.length_cons, sum_range_first, squareSum, Int.natCast_add, ih, Int.natAbs_mul_self]
    simp only [List.getD_cons_zero, List.getD_cons_succ]

/-- A table of period 256 is read mod 256, as R114 writes it. -/
theorem waveSum_eq_overBins {table : Nat → Int} (period : ∀ i, table (i % 256) = table i) (k : Nat) {wave : List Int}
    (full : wave.length = 256) :
    waveSum table k wave 0 = overBins (fun b => wave.getD b 0 * table (k * b % 256)) := by
  simp only [waveSum_eq_sum, full, overBins, period, Nat.zero_add]

theorem squareSum_eq_overBins {wave : List Int} (full : wave.length = 256) :
    (squareSum wave : Int) = overBins (fun b => wave.getD b 0 * wave.getD b 0) := by
  rw [squareSum_eq_sum, full, overBins]

/-! ## The metrics (R114, R115) -/

theorem natAbs_mul_self_add (re im : Int) :
    re.natAbs * re.natAbs + im.natAbs * im.natAbs = (re * re + im * im).toNat := by
  rw [← Int.natAbs_mul_self, ← Int.natAbs_mul_self (a := im), ← Int.natCast_add, Int.toNat_natCast]

theorem amplitude_measures {x : LimitEntry} (order : x.family = .order) {wave : List Int} (full : wave.length = 256) :
    x.Measures wave (amplitude wave x.order) := by
  unfold LimitEntry.Measures
  rw [if_pos order]
  refine ⟨_, isqrt_isRoot _, ?_⟩
  rw [amplitude, waveSum_eq_overBins cosine_mod x.order full, waveSum_eq_overBins sine_mod x.order full, natAbs_mul_self_add]

theorem level_measures {x : LimitEntry} (other : x.family ≠ .order) {wave : List Int} (full : wave.length = 256) :
    x.Measures wave (level wave) := by
  unfold LimitEntry.Measures
  rw [if_neg other]
  refine ⟨_, isqrt_isRoot _, ?_⟩
  rw [level, ← squareSum_eq_overBins full, ← Int.toNat_natCast (squareSum wave / 16), Int.natCast_ediv]
  rfl

theorem metric_measures (x : LimitEntry) (channels : Four Bins) (full : (channels.get x.channel).waveform.length = 256) :
    x.Measures (channels.get x.channel).waveform (metric x channels) := by
  unfold metric
  split
  · next order => exact amplitude_measures order full
  · next other => exact level_measures other full

/-! ## One line in an evaluation (R118 to R120) -/

/-- What one entry of the limit table does to one line. -/
def CheckLine.underEntry (channels : Four Bins) (speed : Int) (number : Nat) (l : CheckLine) (x : LimitEntry) : CheckLine :=
  if x.checkId = l.id ∧ x.inBand speed then noiseLine (metric x channels) speed number l else l

section
variable {channels : Four Bins} {speed : Int} {number : Nat} {l : CheckLine}

theorem LimitEntry.inBand_iff {x : LimitEntry} : x.inBand speed = true ↔ x.low ≤ speed ∧ speed ≤ x.high := decide_eq_true_iff

theorem CheckLine.underEntry_judged {x : LimitEntry} (named : x.checkId = l.id) (inBand : x.inBand speed = true) :
    l.underEntry channels speed number x = noiseLine (metric x channels) speed number l := if_pos ⟨named, inBand⟩

theorem CheckLine.underEntry_unjudged {x : LimitEntry} (h : x.checkId = l.id → ¬x.inBand speed = true) :
    l.underEntry channels speed number x = l := if_neg (not_and.2 h)

theorem noiseEntry_eq_map (ls : List CheckLine) (x : LimitEntry) :
    noiseEntry channels speed number ls x = ls.map (fun l => l.underEntry channels speed number x) := by
  unfold noiseEntry
  split
  · next inBand => exact List.map_congr_left fun l _ => by simp only [CheckLine.underEntry, inBand, and_true, eq_comm]
  · next outOfBand => simp [CheckLine.underEntry, outOfBand]

/-- The entries reach every line by itself. -/
theorem foldl_noiseEntry (entries : List LimitEntry) (ls : List CheckLine) :
    entries.foldl (noiseEntry channels speed number) ls =
      ls.map (fun l => entries.foldl (CheckLine.underEntry channels speed number) l) := by
  induction entries generalizing ls with
  | nil => simp
  | cons x xs ih => rw [List.foldl_cons, ih, noiseEntry_eq_map, List.map_map]; rfl

theorem foldl_underEntry_unjudged {entries : List LimitEntry}
    (h : ∀ x ∈ entries, x.checkId = l.id → ¬x.inBand speed = true) :
    entries.foldl (CheckLine.underEntry channels speed number) l = l := by
  induction entries with
  | nil => rfl
  | cons x xs ih =>
    obtain ⟨first, later⟩ := List.forall_mem_cons.1 h
    rw [List.foldl_cons, CheckLine.underEntry_unjudged first, ih later]

/-- No other entry carries the line's check id, so the line is judged once. -/
theorem foldl_underEntry_judged {entries : List LimitEntry} (distinct : (entries.map LimitEntry.checkId).Nodup)
    {x : LimitEntry} (hx : x ∈ entries) (named : x.checkId = l.id) (inBand : x.inBand speed = true) :
    entries.foldl (CheckLine.underEntry channels speed number) l = noiseLine (metric x channels) speed number l := by
  induction entries with
  | nil => cases hx
  | cons y ys ih =>
    obtain ⟨fresh, distinct⟩ := List.nodup_cons.1 distinct
    have others : ∀ z ∈ ys, z.checkId ≠ y.checkId := fun z hz same => fresh (same ▸ List.mem_map_of_mem hz)
    rcases List.mem_cons.1 hx with rfl | hx
    · rw [List.foldl_cons, CheckLine.underEntry_judged named inBand]
      exact foldl_underEntry_unjudged fun z hz same => absurd (same.trans named.symm) (others z hz)
    · have passed : y.checkId ≠ l.id := fun same => others x hx (named.trans same.symm)
      rw [List.foldl_cons, CheckLine.underEntry_unjudged (fun same => absurd same passed), ih distinct hx]

end

/-! ### The fields of a judged line (R119, R120) -/

theorem noiseLine_outcome (v : Nat) (speed : Int) (number : Nat) (l : CheckLine) :
    (noiseLine v speed number l).outcome = if l.limit < (v : Int) ∨ l.outcome = .fail then .fail else .pass := by
  show (if l.limit < (v : Int) then LineOutcome.fail else if l.outcome = .fail then .fail else .pass) = _
  by_cases above : l.limit < (v : Int)
  · rw [if_pos above, if_pos (.inl above)]
  · simp only [above, if_false, false_or]

theorem noiseLine_worst_replaced {v : Nat} {l : CheckLine} (larger : l.evaluations = 0 ∨ l.worst < (v : Int)) (speed : Int)
    (number : Nat) : (noiseLine v speed number l).worst = v ∧ (noiseLine v speed number l).speedAtWorst = speed ∧
      (noiseLine v speed number l).windowAtWorst = number :=
  ⟨if_pos larger, if_pos larger, if_pos larger⟩

theorem noiseLine_worst_kept {v : Nat} {l : CheckLine} (again : l.evaluations ≠ 0) (within : (v : Int) ≤ l.worst) (speed : Int)
    (number : Nat) : (noiseLine v speed number l).worst = l.worst ∧
      (noiseLine v speed number l).speedAtWorst = l.speedAtWorst ∧
      (noiseLine v speed number l).windowAtWorst = l.windowAtWorst := by
  have kept : ¬(l.evaluations = 0 ∨ l.worst < (v : Int)) := not_or.2 ⟨again, Int.not_lt.2 within⟩
  exact ⟨if_neg kept, if_neg kept, if_neg kept⟩

/-! ## The end of an evaluation (R109) -/

@[simp] theorem Part.analysisTake_station (p : Part) : p.analysisTake.station = p.station := by
  unfold Part.analysisTake
  split <;> rfl

/-- Without the discard mark the stations' records are those that the noise lines leave. -/
theorem Part.evaluationEnd_station {p : Part} {e : Evaluation} (busy : p.engine.evaluation = some e)
    (valid : e.discard = false) : p.evaluationEnd.station = (p.writeNoiseLines e).station := by
  unfold Part.evaluationEnd
  simp only [busy, valid, Part.analysisTake_station]
  rfl

theorem Part.writeNoiseLines_lines (p : Part) (e : Evaluation) :
    ((p.writeNoiseLines e).station.get e.station).lines = (p.station.get e.station).lines.map (fun l =>
      (p.limitEntries e.station).foldl
        (CheckLine.underEntry (p.collector.get e.station).channels e.speed e.number) l) := by
  rw [Part.writeNoiseLines, Part.modStation_station, Four.get_set_same]
  exact foldl_noiseEntry _ _

theorem exec_evaluationEnd {s : State} (released : s.part.resetHeld = false) :
    exec .evaluationEnd s = .next { s with part := s.part.evaluationEnd } := by
  show s.become (s.part.atOnce Part.evaluationEnd) = _
  rw [Part.atOnce, released]
  rfl

/-! ## NoiseLinesJudged -/

/-- Settles O32: every line passes through the entries by itself, and at most one entry carries its id. -/
theorem noiseLinesJudged : Obligations.NoiseLinesJudged := by
  unfold Obligations.NoiseLinesJudged
  refine ⟨fun e s released busy valid distinct => ⟨_, exec_evaluationEnd released, fun i l hl => ?_⟩,
    fun i _ => ⟨cosine_eq i, sine_bounds i⟩, fun i pos h => ⟨sine_half_sub (by omega), sine_full_sub pos h⟩, by decide⟩
  have line := congrArg (fun x => (x.get e.station).lines[i]?) (Part.evaluationEnd_station busy valid)
  simp only [Part.writeNoiseLines_lines, List.getElem?_map, hl, Option.map_some] at line
  refine ⟨_, line, fun unjudged => ?_, fun x hx named low high => ?_⟩
  · exact foldl_underEntry_unjudged fun x hx named inBand => unjudged x hx named (LimitEntry.inBand_iff.1 inBand)
  · rw [foldl_underEntry_judged distinct hx named (LimitEntry.inBand_iff.2 ⟨low, high⟩)]
    exact ⟨_, metric_measures x _, rfl, rfl, noiseLine_outcome _ _ _ l,
      fun larger => noiseLine_worst_replaced larger _ _, fun again within => noiseLine_worst_kept again within _ _⟩

end Sys2Proof.Machine
end
